-- ==== Sys2Proof/Word.lean ====
section
/-! DEFINITION. The plain words of the mux core: a byte, a port index, and the small fixed name sets that the
decoder contexts and the configuration use (00_scope.md R2, R3, R9; 10_state.md R20, R29). -/

namespace Sys2Proof

/-- Every byte of the state is 8 bits (00_scope.md R9). -/
abbrev Byte := BitVec 8

/-- `MAX_PORT_SLOTS`: the input records and the output FIFOs the core has, one of each per port (00_scope.md R8). -/
abbrev maxPortSlots : Nat := 9

/-- `P1_MASK_PORTS`: how many ports one P1 mask byte can name (00_scope.md R8). -/
abbrev p1MaskPorts : Nat := 8

/-- A port index 0..8, scoped to one direction (00_scope.md R8 `MAX_PORT_SLOTS`, glossary "Port"). -/
abbrev Port := Fin maxPortSlots

/-- A port that one P1 mask byte can name, 0..7 (00_scope.md R8 `P1_MASK_PORTS`, 30_encoding.md R85). -/
abbrev MaskPort := Fin p1MaskPorts

/-- The nine port indices, ascending. -/
def allPorts : List Port := [0, 1, 2, 3, 4, 5, 6, 7, 8]

/-- The eight ports a P1 mask byte names, ascending. -/
def maskPorts : List MaskPort := [0, 1, 2, 3, 4, 5, 6, 7]

/-- A P1 mask port as a port index. -/
abbrev MaskPort.port (i : MaskPort) : Port := i.castSucc

/-- The two wire-format variants (00_scope.md R3). In the CFG word P1 is 0 and P2 is 1 (30_encoding.md R94). -/
inductive Variant where
  | p1
  | p2
deriving DecidableEq, Repr

/-- The five states of the P2 decoder, in the order that encodes them as 0..4 (10_state.md R29). -/
inductive P2State where
  | waitMarker
  | portSelect
  | data
  | fixedLen
  | sysEx
deriving DecidableEq, Repr

/-- The three results of `lengthOf` (40_length_table.md R120): `Fixed(L)`, `Variable`, `NotACommand`. -/
inductive LenClass where
  | fixed (total : Nat)
  | variableLen
  | notACommand
deriving DecidableEq, Repr

/-- A port count as a session holds it: the legal values are 5..9 (10_state.md R20), and the type keeps every held
count at most 9, so that an index below the count is always a port. -/
abbrev PortCount := Fin (maxPortSlots + 1)

end Sys2Proof
end

