-- ==== Sys2Proof/Config.lean ====
section
/-! DEFINITION. What an implementation fixes: the shape and the constraints of the command-length table parameter
(00_scope.md R7, 40_length_table.md R127), and the free value for what RESET leaves unspecified (10_state.md R26, R32). -/

namespace Sys2Proof

/-- The `LEN_TABLE` parameter (00_scope.md R7): `chan` is `CHAN_LEN` for the high nibbles 8..E in order
(40_length_table.md R122), `sys` is `SYS_LEN` for the bytes F1..FE in order (R124). -/
structure LenTable where
  chan : Vector Nat 7
  sys : Vector Nat 14
deriving DecidableEq, Repr

/-- The constraints any `LEN_TABLE` must meet (40_length_table.md R127): channel lengths in {2, 3}, system lengths
in {1, 2}. The other clauses of R127 are fixed by `lengthOf` itself. -/
def LenTable.wf (t : LenTable) : Bool :=
  t.chan.toList.all (fun n => n == 2 || n == 3) && t.sys.toList.all (fun n => n == 1 || n == 2)

/-- FREE VALUE (assumption 3): the byte that the `draw`-th buffer cell holds after an accepted RESET. The spec leaves
the contents of `IA[p].buf` and `OF[q].buf` after RESET unspecified (10_state.md R26, R32), and says that no rule reads
such a byte. It has no body: nothing can be proved of its value. -/
opaque Config.freeByte (draw : Nat) : Byte

end Sys2Proof
end

