-- ==== Sys2Proof/Machine/Constants.lean ====
section
/-! DEFINITION. The named constants of 00_scope.md R8. The source's literals are unaudited, so each is named here once
(`MAX_PORT_SLOTS` and `P1_MASK_PORTS`, which the port types need, in Word.lean) and no rule below inlines one. -/

namespace Sys2Proof.Machine

/-- `CAP`: the capacity in bytes of each input assembly buffer and each output FIFO (R8). -/
abbrev cap : Nat := 64

/-- `PULL_MAX`: the bytes asked of each producer per encoder invocation (R8). -/
abbrev pullMax : Nat := 3

/-- `P1_OFFSETS`: mask groups per P1 packet at most, offsets 0..2 (R8, 42_p1_encoder.md R153). -/
abbrev p1Offsets : Nat := 3

/-- The bytes of a P1 packet header, the sequence byte and the reserved byte (42_p1_encoder.md R152, R155). -/
abbrev p1Header : Nat := 2

/-- `GROUP`: slot bytes per P2 group (R8). -/
abbrev group : Nat := 12

/-- `SWITCH_LIMIT`: a P2 port switch starts only while `k < SWITCH_LIMIT` (R8, 90_conflicts.md C2). -/
abbrev switchLimit : Nat := 10

/-- The first byte of `TRAILER` (R8), by which the trailer row of the opcode table is known. -/
abbrev trailerFirst : Byte := 0x01

/-- `TRAILER`: the two-byte P2 group trailer (R8). -/
abbrev trailer : List Byte := [trailerFirst, 0x00]

/-- `SUBFRAME`: bytes per P2 transport sub-frame (R8). -/
abbrev subframe : Nat := 14

/-- `MAX_SUBFRAMES`: P2 sub-frames per packet, at most (R8). -/
abbrev maxSubframes : Nat := 4

/-- `P2_CAP`: the P2 packet capacity, `MAX_SUBFRAMES × SUBFRAME` (R8). -/
abbrev p2Cap : Nat := maxSubframes * subframe

/-- `MARKER`: the P2 port-select marker (R8). -/
abbrev marker : Byte := 0xF5

/-- `FILLER`: the P2 filler byte (R8). -/
abbrev filler : Byte := 0xFF

/-- `SYSEX_BEGIN`: the start of a system-exclusive span (R8). -/
abbrev sysexBegin : Byte := 0xF0

/-- `SYSEX_END`: the end of a system-exclusive span (R8). -/
abbrev sysexEnd : Byte := 0xF7

/-- The status byte `FF`, which is no command (30_encoding.md R80). In P2 decoder contexts it is `filler`. -/
abbrev nonCommand : Byte := 0xFF

/-- Each byte of the P1 end marker `00 00` (30_encoding.md R84). -/
abbrev p1EndByte : Byte := 0x00

/-- The bytes of the P1 end marker (30_encoding.md R84). -/
abbrev p1EndBytes : Nat := 2

/-- The length P2 gives to a running-status message with no known command (43_p2_decoder.md R172). -/
abbrev implied3 : Nat := 3

end Sys2Proof.Machine
end

