-- ==== Sys2Proof/Machine/Operands.lean ====
section
/-! DEFINITION. Operand forms: byte classes (30_encoding.md R80), the CommandLengthTable (40_length_table.md), the
fields of the CFG word (30_encoding.md R94), P1 mask arithmetic (00_scope.md §5 `lowbit`, `popcount`) and P2 port index
bytes (43_p2_decoder.md R168, R169). -/

namespace Sys2Proof.Machine

/-! ### Byte classes (30_encoding.md R80) -/

/-- A status byte: `b[7] = 1` (00_scope.md §5). -/
def isStatus (b : Byte) : Bool := b.getLsbD 7

/-- A data byte: `b[7] = 0`. -/
def isData (b : Byte) : Bool := !b.getLsbD 7

/-- `b` matches a row of the opcode table: `(b & mask) = match` (30_encoding.md R99). -/
def matchesRow (b pattern mask : Byte) : Bool := (b &&& mask) == pattern

/-! ### The CommandLengthTable (40_length_table.md) -/

/-- The default `LEN_TABLE` (40_length_table.md R122, R124; 92_eei_decisions.md D4). -/
def defaultLenTable : LenTable where
  chan := #v[3, 3, 3, 3, 2, 2, 3]
  sys := #v[2, 2, 2, 1, 1, 1, 1, 1, 1, 1, 1, 1, 1, 1]

/-- `CHAN_LEN[b[7:4]]` for a channel status byte (40_length_table.md R122). -/
def chanLen (t : LenTable) (b : Byte) : Nat := (t.chan[b.toNat / 16 - 8]?).getD 0

/-- `SYS_LEN[b]` for a system byte F1..FE (40_length_table.md R124). -/
def sysLen (t : LenTable) (b : Byte) : Nat := (t.sys[b.toNat - 0xF1]?).getD 0

/-- `lengthOf(b)` (40_length_table.md R120..R125): total on every byte value. -/
def lengthOf (t : LenTable) (b : Byte) : LenClass :=
  if b.toNat < 0x80 then .notACommand
  else if b.toNat < 0xF0 then .fixed (chanLen t b)
  else if b = sysexBegin then .variableLen
  else if b = nonCommand then .notACommand
  else .fixed (sysLen t b)

/-- `lengthOf(b) = Fixed(L)` with `L ≥ 2`: the statuses that give a P1 data byte a running-status context
(41_p1_decoder.md R139). -/
def hasRunningStatus (c : LenClass) : Bool :=
  match c with
  | .fixed n => decide (2 ≤ n)
  | .variableLen => false
  | .notACommand => false

/-! ### The CFG word (30_encoding.md R94) -/

/-- `N_IN` or `N_OUT` from its 4-bit field: 5..9 is legal, every other value is not. -/
def portCount? (field : BitVec 4) : Option PortCount :=
  if h : 5 ≤ field.toNat ∧ field.toNat ≤ maxPortSlots then some ⟨field.toNat, Nat.lt_succ_of_le h.2⟩ else none

/-- The session configuration a CFG word names (10_state.md R20). -/
structure SessionConfig where
  variant : Variant
  nIn : PortCount
  nOut : PortCount
deriving DecidableEq, Repr

/-- The fields of a legal CFG word; `none` where a reserved bit is set or a count is outside 5..9. -/
def readCfg (cfg : BitVec 16) : Option SessionConfig :=
  if cfg.extractLsb' 1 3 ≠ 0 ∨ cfg.extractLsb' 12 4 ≠ 0 then none
  else
    match portCount? (cfg.extractLsb' 4 4), portCount? (cfg.extractLsb' 8 4) with
    | some i, some o => some ⟨if cfg.getLsbD 0 then .p2 else .p1, i, o⟩
    | _, _ => none

/-! ### P1 mask bytes (30_encoding.md R85; bit p has weight 2^p, 20_memory.md R67) -/

/-- `lowbit(m, c)`: the least index i ≥ c with `m[i] = 1` (00_scope.md §5). -/
def lowbit (m : Byte) (c : Nat) : Option MaskPort :=
  maskPorts.find? (fun i => decide (c ≤ i.val) && m.getLsbD i.val)

/-- `mask AND NOT (1 << p)` (41_p1_decoder.md R133). -/
def clearBit (m : Byte) (i : Nat) : Byte := m &&& ~~~(1#8 <<< i)

/-- `popcount(m)`: the number of bits set in `m` (00_scope.md §5). -/
def popcount (m : Byte) : Nat := (maskPorts.filter (fun i => m.getLsbD i.val)).length

/-- `Σ 2^q` over the mask ports that `f` holds of (42_p1_encoder.md R153). -/
def maskOf (f : MaskPort → Bool) : Byte :=
  maskPorts.foldl (fun m i => if f i then m ||| (1#8 <<< i.val) else m) 0

/-! ### P2 port index bytes (43_p2_decoder.md R168, R169) -/

/-- The port a P2 index byte selects: valid only when `b < N_IN` (90_conflicts.md C10). -/
def validPort (n : PortCount) (b : Byte) : Option Port :=
  if h : b.toNat < n.val then some ⟨b.toNat, by have := n.isLt; omega⟩ else none

/-- A port index as the byte that carries it. -/
def portByte (p : Port) : Byte := BitVec.ofNat 8 p.val

end Sys2Proof.Machine
end

