-- ==== Sys2Proof/Syntax.lean ====
section
/-! DEFINITION. The instructions of the mux core: one constructor per row of spec/opcode_table.json (30_encoding.md
R99). The rows are of two kinds (30_encoding.md, opening): the four host operations with their operands, and the byte
tokens that each decoder and encoder context acts on. A row whose bits are all fixed carries no byte operand; every
other byte row carries the byte `b` it matched. -/

namespace Sys2Proof

inductive Instr where
  -- context `host` (46_control.md R230 to R233)
  | reset (cfg : BitVec 16)
  | rxPacket (pkt : List Byte)
  | txKick
  | txDone (ok : Bool)
  -- context `lengthOf` (40_length_table.md R121 to R125)
  | lenData (b : Byte)
  | lenChan8 (b : Byte)
  | lenChan9 (b : Byte)
  | lenChanA (b : Byte)
  | lenChanB (b : Byte)
  | lenChanC (b : Byte)
  | lenChanD (b : Byte)
  | lenChanE (b : Byte)
  | lenSysex
  | lenSysF1
  | lenSysF2
  | lenSysF3
  | lenSysF4
  | lenSysF5
  | lenSysF6
  | lenSysF7
  | lenSysF8
  | lenSysF9
  | lenSysFA
  | lenSysFB
  | lenSysFC
  | lenSysFD
  | lenSysFE
  | lenFF
  -- contexts `P1.mask` and `P1.payload` (41_p1_decoder.md R132 to R140)
  | p1Mask0
  | p1Mask (b : Byte)
  | p1PayStatus (b : Byte)
  | p1PaySysex
  | p1PayNac
  | p1PayData (b : Byte)
  | p1PayRs (b : Byte)
  | p1PayNoctx (b : Byte)
  -- contexts `P2.any` to `P2.SysEx` (43_p2_decoder.md R166 to R175)
  | p2Fill
  | p2WaitMark
  | p2WaitOther (b : Byte)
  | p2SelValid (b : Byte)
  | p2SelInvalid (b : Byte)
  | p2DataStatus (b : Byte)
  | p2DataData (b : Byte)
  | p2Fixed (b : Byte)
  | p2SysexEnd
  | p2SysexByte (b : Byte)
  -- context `FIFO.push`, for output port q (44_p2_fifo.md R192 to R197)
  | fifoSysex (q : Port)
  | fifoSysexEnd (q : Port)
  | fifoStatus (q : Port) (b : Byte)
  | fifoNac (q : Port)
  | fifoDataSpan (q : Port) (b : Byte)
  | fifoDataNospan (q : Port) (b : Byte)
  -- context `P2.out` (45_p2_encoder.md R207 to R215)
  | p2outMarker (q : Port)
  | p2outPort (q : Port)
  | p2outPrime (b : Byte)
  | p2outFifo (b : Byte)
  | p2outPad
  | p2outFinalPad
  | p2outTrailer
  -- context `P1.out` (42_p1_encoder.md R152 to R156)
  | p1outSeq (b : Byte)
  | p1outRsvd
  | p1outMask (b : Byte)
  | p1outPayload (b : Byte)
  | p1outEnd
deriving DecidableEq, Repr

/-- The seven rows of context `P2.out` (30_encoding.md R99): which byte of an outbound P2 packet is next. A switch marker
is that of a switch to port q, which the row's condition names and its one byte `F5` does not. -/
inductive P2Slot where
  | switchMarker (q : Port)
  | switchPort
  | priming
  | fifoByte
  | deferredPad
  | finalPad
  | groupTrailer
deriving DecidableEq, Repr

/-- The five rows of context `P1.out` (30_encoding.md R99): which byte of an outbound P1 packet is next. -/
inductive P1Pos where
  | headerSeq
  | headerRsvd
  | mask
  | payload
  | endMarker
deriving DecidableEq, Repr

/-- The context an instruction's bytes are read in (30_encoding.md R99). Rows of different contexts share their bit
patterns, so the bytes alone do not name a row. Each context carries the facts of the state that the row conditions of
spec/opcode_table.json name. -/
inductive Context where
  /-- The host operations: the first byte is the operation code. -/
  | host
  /-- A query of the CommandLengthTable. -/
  | lengthOf
  /-- A P1 body byte read while `inData = false`. -/
  | p1Mask
  /-- A P1 body byte read while `inData = true`, for a port whose record has this `bytesRemaining` and whose
  `lastCommand` has this length class. -/
  | p1Payload (bytesRemaining : Nat) (last : LenClass)
  /-- A P2 body byte in this decoder state, with `N_IN` input ports. -/
  | p2 (st : P2State) (nIn : PortCount)
  /-- A byte pushed to output FIFO q, whose record has this `commandSpanLength`. -/
  | fifoPush (q : Port) (span : Nat)
  /-- A byte the P2 packer emits. -/
  | p2Out (slot : P2Slot)
  /-- A byte the P1 encoder emits. -/
  | p1Out (pos : P1Pos)
deriving DecidableEq, Repr

/-- Where a request enters the machine. The four host operations enter at `host` (30_encoding.md R92). Every other
channel drives one component by itself, byte by byte, as the vectors of 95_test_vectors.md §2.1 and §2.5 do
(assumption 6): the length table, the decoder of the session's variant, one output FIFO's push, and the two encoders'
byte emission. -/
inductive Channel where
  | host
  | lengthOf
  | rxByte
  | push (q : Port)
  | p2Out (slot : P2Slot)
  | p1Out (pos : P1Pos)
deriving DecidableEq, Repr

end Sys2Proof
end

