-- ==== Sys2Proof/WellFormed.lean ====
section
/-! DEFINITION. Well-formed instructions: the operand byte matches its row's `match` and `mask`, and no row of the same
context with more mask bits set takes that byte (30_encoding.md R99; the rows' `condition` fields). -/

namespace Sys2Proof

open Sys2Proof.Machine (matchesRow isStatus isData marker filler sysexBegin sysexEnd nonCommand)

/-- The static check of an instruction. -/
def Instr.wf (i : Instr) : Bool :=
  match i with
  | .reset _ => true
  | .rxPacket _ => true
  | .txKick => true
  | .txDone _ => true
  | .lenData b => matchesRow b 0x00 0x80
  | .lenChan8 b => matchesRow b 0x80 0xF0
  | .lenChan9 b => matchesRow b 0x90 0xF0
  | .lenChanA b => matchesRow b 0xA0 0xF0
  | .lenChanB b => matchesRow b 0xB0 0xF0
  | .lenChanC b => matchesRow b 0xC0 0xF0
  | .lenChanD b => matchesRow b 0xD0 0xF0
  | .lenChanE b => matchesRow b 0xE0 0xF0
  | .lenSysex => true
  | .lenSysF1 => true
  | .lenSysF2 => true
  | .lenSysF3 => true
  | .lenSysF4 => true
  | .lenSysF5 => true
  | .lenSysF6 => true
  | .lenSysF7 => true
  | .lenSysF8 => true
  | .lenSysF9 => true
  | .lenSysFA => true
  | .lenSysFB => true
  | .lenSysFC => true
  | .lenSysFD => true
  | .lenSysFE => true
  | .lenFF => true
  | .p1Mask0 => true
  | .p1Mask b => b != 0x00
  | .p1PayStatus b => isStatus b && b != sysexBegin && b != nonCommand
  | .p1PaySysex => true
  | .p1PayNac => true
  | .p1PayData b => isData b
  | .p1PayRs b => isData b
  | .p1PayNoctx b => isData b
  | .p2Fill => true
  | .p2WaitMark => true
  | .p2WaitOther b => b != marker && b != filler
  | .p2SelValid b => b != filler
  | .p2SelInvalid b => b != filler
  | .p2DataStatus b => isStatus b && b != filler
  | .p2DataData b => isData b
  | .p2Fixed b => b != filler
  | .p2SysexEnd => true
  | .p2SysexByte b => b != sysexEnd && b != filler
  | .fifoSysex _ => true
  | .fifoSysexEnd _ => true
  | .fifoStatus _ b => isStatus b && b != sysexBegin && b != sysexEnd && b != nonCommand
  | .fifoNac _ => true
  | .fifoDataSpan _ b => isData b
  | .fifoDataNospan _ b => isData b
  | .p2outMarker _ => true
  | .p2outPort _ => true
  | .p2outPrime b => isStatus b
  | .p2outFifo _ => true
  | .p2outPad => true
  | .p2outFinalPad => true
  | .p2outTrailer => true
  | .p1outSeq _ => true
  | .p1outRsvd => true
  | .p1outMask b => b != 0x00
  | .p1outPayload _ => true
  | .p1outEnd => true

end Sys2Proof
end

