-- ==== Sys2Proof/Decode.lean ====
section
/-! DEFINITION. The decoder and the encoder of spec/opcode_table.json. A decoder context (30_encoding.md R99) and the
bytes read in it give one instruction, or a rejection by name. Within a context the row with more mask bits set wins,
and in every P2 decoder context the filler row comes first (R99). -/

namespace Sys2Proof

open Sys2Proof.Machine (isStatus isData hasRunningStatus validPort portByte marker filler sysexBegin sysexEnd nonCommand
  trailerFirst p1EndByte)

/-- Why a request's bytes are no instruction. -/
inductive DecodeError where
  /-- No byte at all: there is no operation code and no byte token. -/
  | empty
  /-- A host operation byte above 3: the operation code has two bits (30_encoding.md R92). -/
  | reservedOperation
  /-- The operand bytes of a host operation do not have the form 30_encoding.md R92 gives them. -/
  | badOperands
  /-- A byte that the named row of `P2.out` or `P1.out` cannot hold (30_encoding.md R99). -/
  | badByte
  /-- More bytes than the one token the context reads. -/
  | notOneToken
deriving DecidableEq, Repr

/-! ### Decoding one context at a time -/

/-- Context `host` (30_encoding.md R92, R94). The CFG word is written high byte first (95_test_vectors.md Program 1,
assumption 5); the packet length n is the number of packet bytes that follow the operation byte. -/
def decodeHost (bytes : List Byte) : Except DecodeError Instr :=
  match bytes with
  | [] => .error .empty
  | op :: rest =>
    if op = 0x00 then
      match rest with
      | [hi, lo] => .ok (.reset (hi ++ lo))
      | _ => .error .badOperands
    else if op = 0x01 then .ok (.rxPacket rest)
    else if op = 0x02 then (if rest = [] then .ok .txKick else .error .badOperands)
    else if op = 0x03 then
      (if rest = [0x00] then .ok (.txDone false)
       else if rest = [0x01] then .ok (.txDone true)
       else .error .badOperands)
    else .error .reservedOperation

/-- Context `lengthOf` (40_length_table.md R121 to R125). -/
def decodeLength (b : Byte) : Instr :=
  if b.toNat < 0x80 then .lenData b
  else if b.toNat < 0x90 then .lenChan8 b
  else if b.toNat < 0xA0 then .lenChan9 b
  else if b.toNat < 0xB0 then .lenChanA b
  else if b.toNat < 0xC0 then .lenChanB b
  else if b.toNat < 0xD0 then .lenChanC b
  else if b.toNat < 0xE0 then .lenChanD b
  else if b.toNat < 0xF0 then .lenChanE b
  else if b = sysexBegin then .lenSysex
  else if b = 0xF1 then .lenSysF1
  else if b = 0xF2 then .lenSysF2
  else if b = 0xF3 then .lenSysF3
  else if b = 0xF4 then .lenSysF4
  else if b = 0xF5 then .lenSysF5
  else if b = 0xF6 then .lenSysF6
  else if b = 0xF7 then .lenSysF7
  else if b = 0xF8 then .lenSysF8
  else if b = 0xF9 then .lenSysF9
  else if b = 0xFA then .lenSysFA
  else if b = 0xFB then .lenSysFB
  else if b = 0xFC then .lenSysFC
  else if b = 0xFD then .lenSysFD
  else if b = 0xFE then .lenSysFE
  else .lenFF

/-- Context `P1.mask` (41_p1_decoder.md R132). -/
def decodeP1Mask (b : Byte) : Instr :=
  if b = 0x00 then .p1Mask0 else .p1Mask b

/-- Context `P1.payload` (41_p1_decoder.md R135 to R140). -/
def decodeP1Payload (bytesRemaining : Nat) (last : LenClass) (b : Byte) : Instr :=
  if b = sysexBegin then .p1PaySysex
  else if b = nonCommand then .p1PayNac
  else if isStatus b then .p1PayStatus b
  else if 0 < bytesRemaining then .p1PayData b
  else if hasRunningStatus last then .p1PayRs b
  else .p1PayNoctx b

/-- Contexts `P2.WaitMarker` to `P2.SysEx`, the filler row first (43_p2_decoder.md R166 to R175). -/
def decodeP2 (st : P2State) (nIn : PortCount) (b : Byte) : Instr :=
  if b = filler then .p2Fill
  else
    match st with
    | .waitMarker => if b = marker then .p2WaitMark else .p2WaitOther b
    | .portSelect => if (validPort nIn b).isSome then .p2SelValid b else .p2SelInvalid b
    | .data => if isStatus b then .p2DataStatus b else .p2DataData b
    | .fixedLen => .p2Fixed b
    | .sysEx => if b = sysexEnd then .p2SysexEnd else .p2SysexByte b

/-- Context `FIFO.push` (44_p2_fifo.md R192 to R197). -/
def decodeFifo (q : Port) (span : Nat) (b : Byte) : Instr :=
  if b = sysexBegin then .fifoSysex q
  else if b = sysexEnd then .fifoSysexEnd q
  else if b = nonCommand then .fifoNac q
  else if isStatus b then .fifoStatus q b
  else if 0 < span then .fifoDataSpan q b
  else .fifoDataNospan q b

/-- A port index byte of an outbound switch marker: one of the nine port indices (00_scope.md R8). -/
def outPort? (b : Byte) : Option Port := validPort (Fin.last maxPortSlots) b

/-- A row of an encoder context whose one byte value is `expected`. -/
def fixedByte (expected b : Byte) (i : Instr) : Except DecodeError Instr :=
  if b = expected then .ok i else .error .badByte

/-- Context `P2.out` (45_p2_encoder.md R207 to R215): the byte of each position. The rows of a switch marker are its two
bytes `F5` and `q`; the trailer row is known by its first byte (assumption 13). -/
def decodeP2Out (slot : P2Slot) (b : Byte) : Except DecodeError Instr :=
  match slot with
  | .switchMarker q => fixedByte marker b (.p2outMarker q)
  | .switchPort =>
    match outPort? b with
    | some q => .ok (.p2outPort q)
    | none => .error .badByte
  | .priming => if isStatus b then .ok (.p2outPrime b) else .error .badByte
  | .fifoByte => .ok (.p2outFifo b)
  | .deferredPad => fixedByte filler b .p2outPad
  | .finalPad => fixedByte filler b .p2outFinalPad
  | .groupTrailer => fixedByte trailerFirst b .p2outTrailer

/-- Context `P1.out` (42_p1_encoder.md R152 to R156): the byte of each position. The end marker's row is each of its two
bytes (assumption 13). -/
def decodeP1Out (pos : P1Pos) (b : Byte) : Except DecodeError Instr :=
  match pos with
  | .headerSeq => .ok (.p1outSeq b)
  | .headerRsvd => fixedByte 0x00 b .p1outRsvd
  | .mask => if b = 0x00 then .error .badByte else .ok (.p1outMask b)
  | .payload => .ok (.p1outPayload b)
  | .endMarker => fixedByte p1EndByte b .p1outEnd

/-- A context that reads one byte token, and may refuse some bytes. -/
def decodeToken (f : Byte → Except DecodeError Instr) (bytes : List Byte) : Except DecodeError Instr :=
  match bytes with
  | [] => .error .empty
  | [b] => f b
  | _ => .error .notOneToken

/-- A context that reads one byte token, every byte value being some row's (30_encoding.md R97). -/
def decodeByte (f : Byte → Instr) (bytes : List Byte) : Except DecodeError Instr :=
  decodeToken (fun b => .ok (f b)) bytes

/-- The decoder: total on every context and any bytes. -/
def decode (c : Context) (bytes : List Byte) : Except DecodeError Instr :=
  match c with
  | .host => decodeHost bytes
  | .lengthOf => decodeByte decodeLength bytes
  | .p1Mask => decodeByte decodeP1Mask bytes
  | .p1Payload r l => decodeByte (decodeP1Payload r l) bytes
  | .p2 st n => decodeByte (decodeP2 st n) bytes
  | .fifoPush q span => decodeByte (decodeFifo q span) bytes
  | .p2Out slot => decodeToken (decodeP2Out slot) bytes
  | .p1Out pos => decodeToken (decodeP1Out pos) bytes

/-! ### The encoder -/

/-- The bytes of an instruction, from the same tables. -/
def encode (i : Instr) : List Byte :=
  match i with
  | .reset cfg => [0x00, cfg.extractLsb' 8 8, cfg.extractLsb' 0 8]
  | .rxPacket pkt => 0x01 :: pkt
  | .txKick => [0x02]
  | .txDone ok => [0x03, if ok then 0x01 else 0x00]
  | .lenData b => [b]
  | .lenChan8 b => [b]
  | .lenChan9 b => [b]
  | .lenChanA b => [b]
  | .lenChanB b => [b]
  | .lenChanC b => [b]
  | .lenChanD b => [b]
  | .lenChanE b => [b]
  | .lenSysex => [sysexBegin]
  | .lenSysF1 => [0xF1]
  | .lenSysF2 => [0xF2]
  | .lenSysF3 => [0xF3]
  | .lenSysF4 => [0xF4]
  | .lenSysF5 => [0xF5]
  | .lenSysF6 => [0xF6]
  | .lenSysF7 => [0xF7]
  | .lenSysF8 => [0xF8]
  | .lenSysF9 => [0xF9]
  | .lenSysFA => [0xFA]
  | .lenSysFB => [0xFB]
  | .lenSysFC => [0xFC]
  | .lenSysFD => [0xFD]
  | .lenSysFE => [0xFE]
  | .lenFF => [nonCommand]
  | .p1Mask0 => [0x00]
  | .p1Mask b => [b]
  | .p1PayStatus b => [b]
  | .p1PaySysex => [sysexBegin]
  | .p1PayNac => [nonCommand]
  | .p1PayData b => [b]
  | .p1PayRs b => [b]
  | .p1PayNoctx b => [b]
  | .p2Fill => [filler]
  | .p2WaitMark => [marker]
  | .p2WaitOther b => [b]
  | .p2SelValid b => [b]
  | .p2SelInvalid b => [b]
  | .p2DataStatus b => [b]
  | .p2DataData b => [b]
  | .p2Fixed b => [b]
  | .p2SysexEnd => [sysexEnd]
  | .p2SysexByte b => [b]
  | .fifoSysex _ => [sysexBegin]
  | .fifoSysexEnd _ => [sysexEnd]
  | .fifoStatus _ b => [b]
  | .fifoNac _ => [nonCommand]
  | .fifoDataSpan _ b => [b]
  | .fifoDataNospan _ b => [b]
  | .p2outMarker _ => [marker]
  | .p2outPort q => [portByte q]
  | .p2outPrime b => [b]
  | .p2outFifo b => [b]
  | .p2outPad => [filler]
  | .p2outFinalPad => [filler]
  | .p2outTrailer => [trailerFirst]
  | .p1outSeq b => [b]
  | .p1outRsvd => [0x00]
  | .p1outMask b => [b]
  | .p1outPayload b => [b]
  | .p1outEnd => [p1EndByte]

/-- `c` is a context in which the table lets row `i` apply: the `context` of the row, and those of its conditions that
name the state rather than the byte. -/
def Context.admits (c : Context) (i : Instr) : Bool :=
  match i with
  | .reset _ => c == .host
  | .rxPacket _ => c == .host
  | .txKick => c == .host
  | .txDone _ => c == .host
  | .lenData _ => c == .lengthOf
  | .lenChan8 _ => c == .lengthOf
  | .lenChan9 _ => c == .lengthOf
  | .lenChanA _ => c == .lengthOf
  | .lenChanB _ => c == .lengthOf
  | .lenChanC _ => c == .lengthOf
  | .lenChanD _ => c == .lengthOf
  | .lenChanE _ => c == .lengthOf
  | .lenSysex => c == .lengthOf
  | .lenSysF1 => c == .lengthOf
  | .lenSysF2 => c == .lengthOf
  | .lenSysF3 => c == .lengthOf
  | .lenSysF4 => c == .lengthOf
  | .lenSysF5 => c == .lengthOf
  | .lenSysF6 => c == .lengthOf
  | .lenSysF7 => c == .lengthOf
  | .lenSysF8 => c == .lengthOf
  | .lenSysF9 => c == .lengthOf
  | .lenSysFA => c == .lengthOf
  | .lenSysFB => c == .lengthOf
  | .lenSysFC => c == .lengthOf
  | .lenSysFD => c == .lengthOf
  | .lenSysFE => c == .lengthOf
  | .lenFF => c == .lengthOf
  | .p1Mask0 => c == .p1Mask
  | .p1Mask _ => c == .p1Mask
  | .p1PayStatus _ => match c with
    | .p1Payload _ _ => true
    | _ => false
  | .p1PaySysex => match c with
    | .p1Payload _ _ => true
    | _ => false
  | .p1PayNac => match c with
    | .p1Payload _ _ => true
    | _ => false
  | .p1PayData _ => match c with
    | .p1Payload r _ => decide (0 < r)
    | _ => false
  | .p1PayRs _ => match c with
    | .p1Payload r l => decide (r = 0) && hasRunningStatus l
    | _ => false
  | .p1PayNoctx _ => match c with
    | .p1Payload r l => decide (r = 0) && !hasRunningStatus l
    | _ => false
  | .p2Fill => match c with
    | .p2 _ _ => true
    | _ => false
  | .p2WaitMark => match c with
    | .p2 st _ => st == .waitMarker
    | _ => false
  | .p2WaitOther _ => match c with
    | .p2 st _ => st == .waitMarker
    | _ => false
  | .p2SelValid b => match c with
    | .p2 st n => st == .portSelect && decide (b.toNat < n.val)
    | _ => false
  | .p2SelInvalid b => match c with
    | .p2 st n => st == .portSelect && decide (n.val ≤ b.toNat)
    | _ => false
  | .p2DataStatus _ => match c with
    | .p2 st _ => st == .data
    | _ => false
  | .p2DataData _ => match c with
    | .p2 st _ => st == .data
    | _ => false
  | .p2Fixed _ => match c with
    | .p2 st _ => st == .fixedLen
    | _ => false
  | .p2SysexEnd => match c with
    | .p2 st _ => st == .sysEx
    | _ => false
  | .p2SysexByte _ => match c with
    | .p2 st _ => st == .sysEx
    | _ => false
  | .fifoSysex q => match c with
    | .fifoPush q' _ => q' == q
    | _ => false
  | .fifoSysexEnd q => match c with
    | .fifoPush q' _ => q' == q
    | _ => false
  | .fifoStatus q _ => match c with
    | .fifoPush q' _ => q' == q
    | _ => false
  | .fifoNac q => match c with
    | .fifoPush q' _ => q' == q
    | _ => false
  | .fifoDataSpan q _ => match c with
    | .fifoPush q' n => q' == q && decide (0 < n)
    | _ => false
  | .fifoDataNospan q _ => match c with
    | .fifoPush q' n => q' == q && decide (n = 0)
    | _ => false
  | .p2outMarker q => c == .p2Out (.switchMarker q)
  | .p2outPort _ => c == .p2Out .switchPort
  | .p2outPrime _ => c == .p2Out .priming
  | .p2outFifo _ => c == .p2Out .fifoByte
  | .p2outPad => c == .p2Out .deferredPad
  | .p2outFinalPad => c == .p2Out .finalPad
  | .p2outTrailer => c == .p2Out .groupTrailer
  | .p1outSeq _ => c == .p1Out .headerSeq
  | .p1outRsvd => c == .p1Out .headerRsvd
  | .p1outMask _ => c == .p1Out .mask
  | .p1outPayload _ => c == .p1Out .payload
  | .p1outEnd => c == .p1Out .endMarker

/-! ### Words of the opcode table -/

/-- Byte `k` of a number whose bit 0 is the least significant bit of its first byte. -/
def wordByte (w k : Nat) : Byte := BitVec.ofNat 8 (w / 256 ^ k)

/-- The channel and the bytes that a table word stands for when its context is not given (assumption 7). The words 0..3
are the host operation codes; every other byte is read in context `lengthOf`, the one context whose rows are told apart
by the byte alone. Operand bytes above the word's bits are 0. -/
def tableFrame (nbits w : Nat) : Channel × List Byte :=
  match w % 256 with
  | 0 => (.host, [0x00, wordByte w 1, wordByte w 2])
  | 1 => (.host, 0x01 :: (List.range (nbits / 8 - 1)).map (fun k => wordByte w (k + 1)))
  | 2 => (.host, [0x02])
  | 3 => (.host, [0x03, wordByte w 1])
  | _ => (.lengthOf, [wordByte w 0])

/-- The context a table word is read in. -/
def tableContext (c : Channel) : Context :=
  match c with
  | .lengthOf => .lengthOf
  | _ => .host

/-- The instruction the decoder reads from a word of spec/opcode_table.json. -/
def decodeTableWord (nbits w : Nat) : Option Instr :=
  match decode (tableContext (tableFrame nbits w).1) (tableFrame nbits w).2 with
  | .ok i => some i
  | .error _ => none

end Sys2Proof
end

