-- ==== Sys2Proof/Machine/State.lean ====
section
/-! DEFINITION. The whole state of the mux core as plain data (10_state.md R20 to R40), the model's own fields beside
it, the reasons a step can stop, and the state after reset (70_reset_and_hazards.md R270). -/

namespace Sys2Proof.Machine

/-! ### Why a step stops -/

/-- The reasons a step ends in a fault: none. No condition of the mux core is fatal and none stops an operation
(60_exceptions.md R256, R259; 93_implementation_defined.md "No item is treated as `fault`"), so no meaning raises one. -/
inductive Fault where
deriving DecidableEq, Repr

/-- The reasons a step has no meaning for its request. -/
inductive Refusal where
  /-- Raised by `exec` for an instruction that has no meaning yet. SAFE: the machine stops. No arm of `exec` uses it. -/
  | notModelled (mnemonic : String)
  /-- Raised by a byte row that is driven in a state whose context or row condition is not the row's (30_encoding.md
  R99: which row applies is decided by the state). The table gives the row no effect there. SAFE: the machine stops. -/
  | rowNotSelected (row : String)
  /-- Raised by `step` for request bytes that are no instruction of their context. SAFE: the machine stops. -/
  | undecodable (why : DecodeError)
  /-- Raised by `step` for a decoder byte offered when no decoder context exists: no session, or no mask bit left to
  name a port. SAFE: the machine stops. -/
  | noContext
deriving DecidableEq, Repr

/-! ### Records -/

/-- An input assembly record `IA[p]` (10_state.md R24). -/
structure InRec where
  lastCommand : Byte
  bytesRemaining : Nat
  buf : Vector Byte cap
  length : Nat
  deliverableLength : Nat
deriving DecidableEq, Repr

/-- The P1 decoder's scan state (10_state.md R28). It lives for one P1 decode operation. -/
structure ScanState where
  inData : Bool
  mask : Byte
  channel : Nat
  discard : Vector Bool p1MaskPorts
deriving DecidableEq, Repr

/-- An output FIFO record `OF[q]` (10_state.md R30). -/
structure OutFifo where
  buf : Vector Byte cap
  rd : Nat
  wr : Nat
  length : Nat
  sendableLength : Nat
  lastCommand : Byte
  commandSpanLength : Nat
  remaining : Nat
deriving DecidableEq, Repr

/-- What the P2 packer's position in a port switch owes next, when its rows are driven one by one (assumption 13). The
packer itself holds this in its control flow (45_p2_encoder.md R211, R212). -/
inductive P2Due where
  /-- No switch is under way. -/
  | slot
  /-- The `F5` of a switch to port q has been emitted: the port index q is next. -/
  | index (q : Port)
  /-- A switch marker is complete: the priming byte is next, where one is due. -/
  | priming
deriving DecidableEq, Repr

/-- The encoders' transient cursors (10_state.md R23): the bytes pulled from each producer `d[q]` and the offset `j`
(P1), the slot counter `k` and the closed groups (P2), and the assembled bytes `out` of either. Three more are the
model's own, the packers' control flow: `pending` holds the bits of the current P1 mask whose payload byte has not been
appended yet, `ends` counts the bytes of the P1 end marker appended so far, and `due` is what a P2 port switch owes
next. They last for one invocation. -/
structure EncState where
  pulled : Vector (List Byte) maxPortSlots
  out : List Byte
  j : Nat
  pending : Byte
  k : Nat
  groups : Nat
  ends : Nat
  due : P2Due
deriving DecidableEq, Repr

/-! ### The interface with the environment -/

/-- The error conditions (60_exceptions.md R250). -/
inductive Condition where
  | rxOverflow
  | invalidPort
  | fifoOverflow
  | submitFail
deriving DecidableEq, Repr

/-- The events the mux core emits (30_encoding.md R93). A PULL and a TX_SUBMIT carry the answer they were given
(00_scope.md §5), so that the list of events is the whole exchange with the environment. -/
inductive Event where
  | deliver (p : Port) (bytes : List Byte)
  | report (code : Byte) (arg : Byte)
  | pull (q : Port) (n : Nat) (answer : List Byte)
  | txSubmit (bytes : List Byte) (subframes : List (Nat × Nat)) (accepted : Bool)
  | rxRearm
deriving DecidableEq, Repr

/-- Why an operation is refused: it then changes no state of the spec's and emits nothing
(93_implementation_defined.md, treatment `refuse`). -/
inductive RefuseReason where
  /-- A CFG word with a reserved bit set or a count outside 5..9 (46_control.md R230). -/
  | illegalCfg
  /-- Any operation but RESET before the first accepted RESET (70_reset_and_hazards.md R271). -/
  | noSession
  /-- An RX_PACKET while no receive is outstanding (46_control.md R231). -/
  | noReceivePosted
  /-- A producer's answer of more than 3 bytes (46_control.md R238). -/
  | pullAnswerTooLong
deriving DecidableEq, Repr

/-- Whether the last host operation was accepted. The model's own field (assumption 4). -/
inductive Verdict where
  | accepted
  | refused (why : RefuseReason)
deriving DecidableEq, Repr

/-- The environment's answers, free inputs of the operation that asks for them (10_state.md R39, 46_control.md R237,
R238): the bytes each producer returns to its PULL, and whether the transport accepts the TX_SUBMIT. -/
structure EnvAnswers where
  pull : Vector (List Byte) maxPortSlots
  accept : Bool
deriving DecidableEq, Repr

/-- One request of the environment: where it enters, its bytes, and the answers it comes with. -/
structure Request where
  chan : Channel
  bytes : List Byte
  env : EnvAnswers
deriving DecidableEq, Repr

/-! ### The state -/

structure State where
  /-- A RESET has been accepted (70_reset_and_hazards.md R271). -/
  sessionOpen : Bool
  /-- `VARIANT` (R20). -/
  variant : Variant
  /-- `N_IN` (R20). -/
  nIn : PortCount
  /-- `N_OUT` (R20). -/
  nOut : PortCount
  /-- The `LEN_TABLE` parameter (00_scope.md R7), which no operation writes (40_length_table.md R126). -/
  lenTable : LenTable
  /-- The packet byte cursor `i` (R22): 0 between operations. -/
  cursor : Nat
  /-- `IA[0..8]` (R24). -/
  ia : Vector InRec maxPortSlots
  /-- The P1 scan state (R28): at its initial value between operations. -/
  scan : ScanState
  /-- `p2State` (R29). -/
  p2State : P2State
  /-- `selectedPort` (R29): `none` is −1. -/
  selectedPort : Option Port
  /-- `OF[0..8]` (R30). -/
  fifo : Vector OutFifo maxPortSlots
  /-- The encoders' transient cursors (R23): at their initial value between operations. -/
  enc : EncState
  /-- `seq` (R34). -/
  seq : Byte
  /-- `lastOutputPort` (R35): `none` is −1. -/
  lastOutputPort : Option Port
  /-- `active` (R36). -/
  active : Bool
  /-- `rxPosted` (R37). -/
  rxPosted : Bool
  /-- MODEL'S OWN: every event emitted so far, oldest first. -/
  events : List Event
  /-- MODEL'S OWN: whether the last host operation was accepted. -/
  verdict : Verdict
  /-- MODEL'S OWN: the answer of the last `lengthOf` query. -/
  lenAnswer : Option LenClass
  /-- MODEL'S OWN: the environment's answers for the operation that runs. -/
  env : EnvAnswers
  /-- MODEL'S OWN: the requests the environment has made and the machine has not run yet, oldest first. -/
  inbox : List Request
  /-- MODEL'S OWN: how many free values have been drawn. -/
  freeDraws : Nat
deriving DecidableEq, Repr

/-! ### Values after reset -/

/-- The reset record of `IA[p]` over given buffer contents (R26). -/
def InRec.fresh (buf : Vector Byte cap) : InRec := ⟨0x00, 0, buf, 0, 0⟩

/-- The reset record of `OF[q]` over given buffer contents (R32). -/
def OutFifo.fresh (buf : Vector Byte cap) : OutFifo := ⟨buf, 0, 0, 0, 0, 0x00, 0, 0⟩

/-- The scan state at the start of each P1 packet (R28). -/
def ScanState.init : ScanState := ⟨false, 0x00, 0, Vector.replicate p1MaskPorts false⟩

/-- The encoder cursors at the start of each invocation (R23). -/
def EncState.init : EncState := ⟨Vector.replicate maxPortSlots [], [], 0, 0x00, 0, 0, 0, .slot⟩

/-- Producers with nothing pending and a transport that rejects. -/
def EnvAnswers.silent : EnvAnswers := ⟨Vector.replicate maxPortSlots [], false⟩

/-- The machine right after a RESET (70_reset_and_hazards.md R270). The spec gives the configuration no default and the
buffers no contents; the model names P1 with five ports each way (CFG word 0x0550, assumption 1) and zero bytes
(assumption 2). The one event is RESET's RX_REARM (46_control.md R230). -/
def State.reset : State where
  sessionOpen := true
  variant := .p1
  nIn := 5
  nOut := 5
  lenTable := defaultLenTable
  cursor := 0
  ia := Vector.replicate maxPortSlots (InRec.fresh (Vector.replicate cap 0x00))
  scan := ScanState.init
  p2State := .waitMarker
  selectedPort := none
  fifo := Vector.replicate maxPortSlots (OutFifo.fresh (Vector.replicate cap 0x00))
  enc := EncState.init
  seq := 0x00
  lastOutputPort := none
  active := false
  rxPosted := true
  events := [.rxRearm]
  verdict := .accepted
  lenAnswer := none
  env := EnvAnswers.silent
  inbox := []
  freeDraws := 0

/-- A machine before its first accepted RESET (70_reset_and_hazards.md R271): no session is open. The rest of its state
is unspecified there, and no operation but RESET reads it. -/
def State.beforeReset : State :=
  { State.reset with sessionOpen := false, rxPosted := false, events := [] }

end Sys2Proof.Machine
end

