-- ==== Sys2Proof/Machine/Flags.lean ====
section
/-! DEFINITION. The 1-bit state elements (10_state.md R38). The mux core has no condition codes, and no operation
writes a flag as a side effect of arithmetic: `inData`, `discard[p]`, `active` and `rxPosted` are written only by the
operations below. -/

namespace Sys2Proof.Machine

/-- `active <- v` (10_state.md R36). -/
def setActive (v : Bool) (s : State) : State := { s with active := v }

/-- `rxPosted <- v` (10_state.md R37). -/
def setRxPosted (v : Bool) (s : State) : State := { s with rxPosted := v }

/-- The P1 scan state is replaced (10_state.md R28). -/
def setScan (v : ScanState) (s : State) : State := { s with scan := v }

/-- `inData <- v` (10_state.md R28). -/
def setInData (v : Bool) (s : State) : State := setScan { s.scan with inData := v } s

/-- `discard[p] <- true` (41_p1_decoder.md R141). -/
def setDiscard (i : MaskPort) (s : State) : State :=
  setScan { s.scan with discard := s.scan.discard.set i true } s

/-- `discard[p]` (10_state.md R28). -/
def discarding (i : MaskPort) (s : State) : Bool := s.scan.discard[i]

end Sys2Proof.Machine
end

