-- ==== Sys2Proof/Machine/Ops.lean ====
section
/-! DEFINITION. The named operations over the storage: the events, the input assembly buffers (20_memory.md R60 to
R63), the output FIFOs (R64, R65), the refusal of an operation, the selection of a row, and raising a condition. -/

namespace Sys2Proof.Machine

/-! ### Events and verdicts -/

/-- `emit e` (00_scope.md §5). -/
def emit (e : Event) (s : State) : State := { s with events := s.events ++ [e] }

/-- The REPORT code of a condition (60_exceptions.md R250). -/
def Condition.code : Condition → Byte
  | .rxOverflow => 1
  | .invalidPort => 2
  | .fifoOverflow => 3
  | .submitFail => 4

/-- RAISING A CONDITION (60_exceptions.md R259): the mux core has no traps, so raising one emits its REPORT. The
recovery follows at each condition's rule, and the operation then goes on with its next step, which is all the return
there is. -/
def raiseCondition (c : Condition) (arg : Byte) (s : State) : State := emit (.report c.code arg) s

/-- The operation is accepted. -/
def accept (s : State) : State := { s with verdict := .accepted }

/-- The operation is refused: no state of the spec's changes and nothing is emitted (93_implementation_defined.md,
treatment `refuse`). -/
def refuse (why : RefuseReason) (s : State) : State := { s with verdict := .refused why }

/-- A byte row answers `t` where its context and conditions hold, and is not the row that applies elsewhere
(30_encoding.md R99). -/
def whenSelected (row : String) (cond : Bool) (t : State) : Host.Outcome State Fault Refusal :=
  if cond then .next t else .refused (.rowNotSelected row)

/-- A session of this variant is open. -/
def inSession (v : Variant) (s : State) : Bool := s.sessionOpen && s.variant == v

/-! ### Registers -/

/-- The P2 decoder state and the selected port are written (10_state.md R29). -/
def setP2 (st : P2State) (p : Option Port) (s : State) : State := { s with p2State := st, selectedPort := p }

/-- `seq <- v` (10_state.md R34). -/
def setSeq (v : Byte) (s : State) : State := { s with seq := v }

/-- `lastOutputPort <- q` (10_state.md R35). -/
def setLastOutputPort (q : Port) (s : State) : State := { s with lastOutputPort := some q }

/-- The encoder cursors are written (10_state.md R23). -/
def setEnc (e : EncState) (s : State) : State := { s with enc := e }

/-- The packet byte cursor is written (10_state.md R22). -/
def setCursor (i : Nat) (s : State) : State := { s with cursor := i }

/-- The answer of a `lengthOf` query is latched. -/
def setLenAnswer (c : LenClass) (s : State) : State := { s with lenAnswer := some c }

/-! ### Bytes of a buffer -/

/-- Byte `i` of a buffer. -/
def bufGet (v : Vector Byte cap) (i : Nat) : Byte := (v[i]?).getD 0

/-- A buffer with byte `i` written. No write falls outside the buffer (20_memory.md R61, R65). -/
def bufSet (v : Vector Byte cap) (i : Nat) (b : Byte) : Vector Byte cap := v.setIfInBounds i b

/-! ### Input assembly records (20_memory.md R60 to R63) -/

/-- `IA[p]` is rewritten by `f`. -/
def modIn (p : Port) (f : InRec → InRec) (s : State) : State := { s with ia := s.ia.set p (f s.ia[p]) }

/-- The buffered bytes `buf[0 .. length−1]`. -/
def InRec.bytes (r : InRec) : List Byte := r.buf.toList.take r.length

/-- The deliverable bytes `buf[0 .. deliverableLength−1]` (10_state.md R24). -/
def InRec.deliverable (r : InRec) : List Byte := r.buf.toList.take r.deliverableLength

/-- The write of `Append` to a record that is not full (20_memory.md R60). -/
def InRec.push (b : Byte) (r : InRec) : InRec :=
  { r with buf := bufSet r.buf r.length b, length := r.length + 1 }

/-- `Append(p, b)` (20_memory.md R60, R61): `none` is the condition Overflow, and then nothing is written. -/
def append (p : Port) (b : Byte) (s : State) : Option State :=
  if s.ia[p].length = cap then none else some (modIn p (InRec.push b) s)

/-- `ShiftOut(p, d)` on a record (20_memory.md R62). -/
def InRec.shiftOut (d : Nat) (r : InRec) : InRec :=
  { r with
    buf := Vector.ofFn (fun x : Fin cap => if x.val < r.length - d then bufGet r.buf (x.val + d) else r.buf[x])
    length := r.length - d
    deliverableLength := 0 }

/-- `Clear(p)` on a record (20_memory.md R63). -/
def InRec.clear (r : InRec) : InRec := { r with length := 0, deliverableLength := 0 }

/-- `ResetRecord(p)` on a record (20_memory.md R63): `lastCommand` is kept. -/
def InRec.resetRecord (r : InRec) : InRec := { r.clear with bytesRemaining := 0 }

/-- `IA[p].lastCommand <- b`. -/
def InRec.withCommand (b : Byte) (r : InRec) : InRec := { r with lastCommand := b }

/-- `IA[p].bytesRemaining <- n`. -/
def InRec.withRemaining (n : Nat) (r : InRec) : InRec := { r with bytesRemaining := n }

/-- `IA[p].deliverableLength <- IA[p].length`. -/
def InRec.markDeliverable (r : InRec) : InRec := { r with deliverableLength := r.length }

/-! ### Output FIFO records (20_memory.md R64, R65) -/

/-- `OF[q]` is rewritten by `f`. -/
def modFifo (q : Port) (f : OutFifo → OutFifo) (s : State) : State := { s with fifo := s.fifo.set q (f s.fifo[q]) }

/-- A FIFO is full when its length is `CAP` (20_memory.md R65). -/
def OutFifo.full (f : OutFifo) : Bool := f.length == cap

/-- The queued bytes, oldest first: `length` bytes from the read cursor. -/
def OutFifo.queued (f : OutFifo) : List Byte := (List.range f.length).map (fun x => bufGet f.buf ((f.rd + x) % cap))

/-- The sendable prefix: the first `sendableLength` bytes from the read cursor (glossary "Sendable prefix"). -/
def OutFifo.sendable (f : OutFifo) : List Byte :=
  (List.range f.sendableLength).map (fun x => bufGet f.buf ((f.rd + x) % cap))

/-- `FifoWrite(q, b)` on a record (20_memory.md R64). -/
def OutFifo.write (b : Byte) (f : OutFifo) : OutFifo :=
  { f with buf := bufSet f.buf f.wr b, wr := (f.wr + 1) % cap, length := f.length + 1 }

/-- `FifoPeek(q)`: the head byte (20_memory.md R64). -/
def OutFifo.peek (f : OutFifo) : Byte := bufGet f.buf f.rd

/-- What `FifoPop(q)` leaves of a record (20_memory.md R64); the byte it returns is `peek`. -/
def OutFifo.pop (f : OutFifo) : OutFifo :=
  { f with rd := (f.rd + 1) % cap, length := f.length - 1, sendableLength := f.sendableLength - 1 }

/-- `OF[q].lastCommand <- b`. -/
def OutFifo.withCommand (b : Byte) (f : OutFifo) : OutFifo := { f with lastCommand := b }

/-- `OF[q].commandSpanLength <- n; OF[q].remaining <- n` (44_p2_fifo.md R192 to R195). -/
def OutFifo.withSpan (n : Nat) (f : OutFifo) : OutFifo := { f with commandSpanLength := n, remaining := n }

/-- `OF[q].sendableLength <- OF[q].length`. -/
def OutFifo.markSendable (f : OutFifo) : OutFifo := { f with sendableLength := f.length }

end Sys2Proof.Machine
end

