-- ==== Sys2Proof/Machine/Submit.lean ====
section
/-! DEFINITION. What the two encoders share: asking the producers (46_control.md R238) and submitting a packet
(46_control.md R237, 42_p1_encoder.md R157, 45_p2_encoder.md R217). -/

namespace Sys2Proof.Machine

/-- The output ports an encoder invocation pulls, ascending: 0..min(N_OUT, 8)−1 in P1 (42_p1_encoder.md R151),
0..N_OUT−1 in P2 (45_p2_encoder.md R205). -/
def pulledPorts (s : State) : List Port :=
  match s.variant with
  | .p1 => allPorts.filter (fun q => decide (q.val < min s.nOut.val p1MaskPorts))
  | .p2 => allPorts.filter (fun q => decide (q.val < s.nOut.val))

/-- The producer's answer to PULL(q, 3), a free input (46_control.md R238). -/
def pullAnswer (q : Port) (s : State) : List Byte := s.env.pull[q]

/-- `emit PULL(q, 3)` with its answer (30_encoding.md R93). -/
def emitPull (q : Port) (s : State) : State := emit (.pull q pullMax (pullAnswer q s)) s

/-- Every answer that would be asked for has at most 3 bytes (46_control.md R238). -/
def answersLegal (s : State) : Bool := (pulledPorts s).all (fun q => decide ((pullAnswer q s).length ≤ pullMax))

/-- `out` grows by given bytes (10_state.md R23). -/
def appendOut (bytes : List Byte) (s : State) : State := setEnc { s.enc with out := s.enc.out ++ bytes } s

/-- Submit the assembled packet: TX_SUBMIT with the transport's answer, then `active` or SubmitFail with the variant's
number (42_p1_encoder.md R156, R157, 45_p2_encoder.md R217, 60_exceptions.md R254). -/
def submit (variantArg : Byte) (subframes : List (Nat × Nat)) (s : State) : State :=
  let t := emit (.txSubmit s.enc.out subframes s.env.accept) s
  if s.env.accept then setActive true t else raiseCondition .submitFail variantArg t

end Sys2Proof.Machine
end

