-- ==== Sys2Proof/Machine/P1Encoder.lean ====
section
/-! DEFINITION. The Protocol 1 encoder (42_p1_encoder.md R150 to R158): the pull phase, the header, the mask groups,
the end marker and the submission, and the meanings of the rows of `P1.out`. -/

namespace Sys2Proof.Machine

/-! ### The bytes of the packet -/

/-- One producer is asked and its answer is `d[q]` (R151). -/
def p1PullPort (s : State) (q : Port) : State :=
  setEnc { s.enc with pulled := s.enc.pulled.set q (pullAnswer q s) } (emitPull q s)

/-- `Pull1()` (R151): ascending; a port that is not pulled has `d[q] = []`. -/
def p1Pull (s : State) : State := (pulledPorts s).foldl p1PullPort s

/-- Byte 0 of the header is `seq`, which then advances modulo 256 (R152). -/
def p1EmitSeq (s : State) : State := setSeq (s.seq + 1) (appendOut [s.seq] s)

/-- Byte 1 of the header is reserved and `00` (R152). -/
def p1EmitRsvd (s : State) : State := appendOut [0x00] s

/-- `M_j`: the ports that still have a byte at offset `j` (R153). -/
def groupMask (e : EncState) : Byte := maskOf (fun i => decide (e.j < e.pulled[i.port].length))

/-- A group opens with its mask byte (R153). -/
def p1EmitMask (m : Byte) (s : State) : State := setEnc { s.enc with out := s.enc.out ++ [m], pending := m } s

/-- The byte `d[q][j]` (R153). -/
def payloadByte (i : MaskPort) (e : EncState) : Byte := e.pulled[i.port].getD e.j 0

/-- One payload byte of the group; after the last one the offset advances (R153). -/
def p1EmitPayload (i : MaskPort) (s : State) : State :=
  setEnc
    { s.enc with
      out := s.enc.out ++ [payloadByte i s.enc]
      pending := clearBit s.enc.pending i.val
      j := if clearBit s.enc.pending i.val = 0x00 then s.enc.j + 1 else s.enc.j } s

/-- One group: the mask, then the payload bytes of its ports ascending (R153). -/
def p1Group (m : Byte) (s : State) : State :=
  maskPorts.foldl (fun t i => if m.getLsbD i.val then p1EmitPayload i t else t) (p1EmitMask m s)

/-- `Groups1(out)` over at most `left` more offsets (R153). An empty mask ends the loop and marks the transmitter idle
(R154). -/
def p1Groups : Nat → State → State
  | 0, s => s
  | left + 1, s =>
    if groupMask s.enc = 0x00 then setActive false s else p1Groups left (p1Group (groupMask s.enc) s)

/-- One byte of the end marker `00 00` (R156). -/
def p1EmitEnd (s : State) : State :=
  setEnc { s.enc with out := s.enc.out ++ [p1EndByte], ends := s.enc.ends + 1 } s

/-- `Finish1(out)`: the end marker, and the whole packet as one sub-frame (R156, R157, 30_encoding.md R91). -/
def p1Finish (s : State) : State :=
  let t := p1EmitEnd (p1EmitEnd s)
  submit 1 [(0, t.enc.out.length)] t

/-- `P1_ENCODE()` (R150): nothing beyond the header is not submitted (R155). -/
def p1Encode (s : State) : State :=
  let t := p1Groups p1Offsets (p1EmitRsvd (p1EmitSeq (p1Pull (setEnc EncState.init s))))
  setEnc EncState.init (if t.enc.out.length = p1Header then t else p1Finish t)

/-! ### Rows -/

/-- The P1 encoder runs in a session of P1, and only while `active = false` (46_control.md R235). -/
def inP1Out (s : State) : Bool := inSession .p1 s && !s.active

/-- Row P1OUT.SEQ (R152): byte 0 is `seq`. -/
def execP1outSeq (b : Byte) (s : State) : Host.Outcome State Fault Refusal :=
  whenSelected "P1OUT.SEQ" (inP1Out s && s.enc.out == [] && b == s.seq) (p1EmitSeq s)

/-- Row P1OUT.RSVD (R152): byte 1. -/
def execP1outRsvd (s : State) : Host.Outcome State Fault Refusal :=
  whenSelected "P1OUT.RSVD" (inP1Out s && s.enc.out.length == 1) (p1EmitRsvd s)

/-- Row P1OUT.MASK (R153): the first byte of group j, j = 0..2. -/
def execP1outMask (b : Byte) (s : State) : Host.Outcome State Fault Refusal :=
  whenSelected "P1OUT.MASK"
    (inP1Out s && decide (p1Header ≤ s.enc.out.length) && s.enc.pending == 0x00 && decide (s.enc.j < p1Offsets) &&
      b == groupMask s.enc && b != 0x00)
    (p1EmitMask b s)

/-- Row P1OUT.PAYLOAD (R153): the byte of the lowest port of the mask that is still owed one. -/
def execP1outPayload (b : Byte) (s : State) : Host.Outcome State Fault Refusal :=
  match lowbit s.enc.pending 0 with
  | none => .refused (.rowNotSelected "P1OUT.PAYLOAD")
  | some i => whenSelected "P1OUT.PAYLOAD" (inP1Out s && b == payloadByte i s.enc) (p1EmitPayload i s)

/-- Row P1OUT.END (R156): each of the last two bytes, after the last group, when there is more than the header
(assumption 13). -/
def execP1outEnd (s : State) : Host.Outcome State Fault Refusal :=
  whenSelected "P1OUT.END"
    (inP1Out s && decide (p1Header < s.enc.out.length) && s.enc.pending == 0x00 && decide (s.enc.ends < p1EndBytes) &&
      (decide (p1Offsets ≤ s.enc.j) || groupMask s.enc == 0x00))
    (p1EmitEnd s)

end Sys2Proof.Machine
end

