-- ==== Sys2Proof/Machine/P1Decoder.lean ====
section
/-! DEFINITION. The Protocol 1 decoder (41_p1_decoder.md R130 to R142): the mask scan, AppendAndClassify in its six
cases, the overflow recovery and the delivery phase, and the meanings of the rows of `P1.mask` and `P1.payload`. -/

namespace Sys2Proof.Machine

/-! ### Mask bytes -/

/-- A `00` mask byte changes nothing (R132). -/
def p1MaskZero (s : State) : State := s

/-- A nonzero mask byte opens a group (R132). -/
def p1MaskOpen (b : Byte) (s : State) : State :=
  setScan { s.scan with mask := b, inData := true, channel := 0 } s

/-! ### Payload bytes -/

/-- The port the next payload byte is for: `lowbit(mask, channel)` (R133). -/
def payloadPort (s : State) : Option MaskPort := lowbit s.scan.mask s.scan.channel

/-- The port's mask bit is cleared and the channel cursor moves past it (R133). -/
def takePort (i : MaskPort) (s : State) : State :=
  setScan { s.scan with mask := clearBit s.scan.mask i.val, channel := i.val + 1 } s

/-- When the mask is fully cleared, the next byte is a mask (R133). -/
def leaveData (s : State) : State := if s.scan.mask = 0x00 then setInData false s else s

/-- `PayloadStep` around one case of AppendAndClassify (R133): a discarding port consumes the byte and drops it. -/
def payloadStep (classify : MaskPort → State → State) (s : State) : State :=
  match payloadPort s with
  | none => s
  | some i =>
    let t := takePort i s
    leaveData (if discarding i t then t else classify i t)

/-- RxOverflow in P1 (R141): one report, the record is reset, and the port discards for the rest of the packet. -/
def p1Overflow (i : MaskPort) (s : State) : State :=
  setDiscard i (modIn i.port InRec.resetRecord (raiseCondition .rxOverflow (portByte i.port) s))

/-- Append `b` and mark the whole buffer deliverable, or recover from the overflow (R135, R136, R137, R140). -/
def appendDeliverable (i : MaskPort) (b : Byte) (s : State) : State :=
  match append i.port b s with
  | none => p1Overflow i s
  | some t => modIn i.port InRec.markDeliverable t

/-- One data byte fewer is expected, and at 0 the buffer is deliverable (R138). -/
def InRec.countDown (r : InRec) : InRec :=
  if r.bytesRemaining - 1 = 0 then (r.withRemaining 0).markDeliverable else r.withRemaining (r.bytesRemaining - 1)

/-- Append a data byte of the message in progress and count it (R138, and the second half of R139). -/
def appendCounted (i : MaskPort) (b : Byte) (s : State) : State :=
  match append i.port b s with
  | none => p1Overflow i s
  | some t => modIn i.port InRec.countDown t

/-- The data bytes a fixed-length status announces: `L − 1`. -/
def dataBytesOf (c : LenClass) : Nat :=
  match c with
  | .fixed n => n - 1
  | .variableLen => 0
  | .notACommand => 0

/-- A status byte with a fixed length (R135). -/
def p1Status (b : Byte) (i : MaskPort) (s : State) : State :=
  appendDeliverable i b
    (modIn i.port (fun r => (r.withCommand b).withRemaining (dataBytesOf (lengthOf s.lenTable b))) s)

/-- SysEx begin (R136). -/
def p1Sysex (i : MaskPort) (s : State) : State :=
  appendDeliverable i sysexBegin (modIn i.port (fun r => (r.withCommand sysexBegin).withRemaining 0) s)

/-- A status byte that is no command (R137). -/
def p1NotACommand (b : Byte) (i : MaskPort) (s : State) : State := appendDeliverable i b s

/-- A data byte inside a message (R138). -/
def p1DataInProgress (b : Byte) (i : MaskPort) (s : State) : State := appendCounted i b s

/-- A data byte under running status (R139): the implied status byte is appended first. R143 and 60_exceptions.md R251
say that an overflow needs more than 62 payload bytes for one port in one packet; after `C0` each data byte appends two
bytes here, and the 33rd finds the buffer full. The model follows the pseudocode of R139 (assumption 19). -/
def p1RunningStatus (b : Byte) (i : MaskPort) (s : State) : State :=
  let c := s.ia[i.port].lastCommand
  match append i.port c s with
  | none => p1Overflow i s
  | some t => appendCounted i b (modIn i.port (InRec.withRemaining (dataBytesOf (lengthOf s.lenTable c))) t)

/-- A data byte without context (R140). -/
def p1NoContext (b : Byte) (i : MaskPort) (s : State) : State := appendDeliverable i b s

/-- `AppendAndClassify(p, b)`: the six cases (R135 to R140). -/
def appendAndClassify (b : Byte) (i : MaskPort) (s : State) : State :=
  if isStatus b then
    match lengthOf s.lenTable b with
    | .fixed _ => p1Status b i s
    | .variableLen => p1Sysex i s
    | .notACommand => p1NotACommand b i s
  else if 0 < s.ia[i.port].bytesRemaining then p1DataInProgress b i s
  else if hasRunningStatus (lengthOf s.lenTable s.ia[i.port].lastCommand) then p1RunningStatus b i s
  else p1NoContext b i s

/-- One body byte: `MaskStep` or `PayloadStep` (R130, R132, R133). -/
def p1Byte (b : Byte) (s : State) : State :=
  if s.scan.inData then payloadStep (appendAndClassify b) s
  else if b = 0x00 then p1MaskZero s
  else p1MaskOpen b s

/-! ### The packet -/

/-- Every byte in order; each byte step advances the cursor by exactly 1 (10_state.md R22). -/
def scanBytes (byteStep : Byte → State → State) : List Byte → State → State
  | [], s => s
  | b :: bs, s => scanBytes byteStep bs (setCursor (s.cursor + 1) (byteStep b s))

/-- `DeliverAll` for one port (R142). -/
def deliverPort (p : Port) (s : State) : State :=
  if 0 < s.ia[p].deliverableLength then
    modIn p (InRec.shiftOut s.ia[p].deliverableLength) (emit (.deliver p s.ia[p].deliverable) s)
  else s

/-- `DeliverAll` (R142): ports 0..8 ascending. -/
def deliverAll (s : State) : State := allPorts.foldl (fun t p => deliverPort p t) s

/-- `P1_DECODE` (R130): a packet of fewer than 2 bytes is ignored whole; bytes 0 and 1 are not looked at. What is left
of the scan state and the cursor does not survive the operation (R131, R134, 10_state.md R22). -/
def p1Decode (pkt : List Byte) (s : State) : State :=
  if pkt.length < 2 then s
  else
    setCursor 0 (setScan ScanState.init
      (deliverAll (scanBytes p1Byte (pkt.drop 2) (setCursor 2 (setScan ScanState.init s)))))

/-! ### Rows -/

/-- The context `P1.mask`: a session of P1, with `inData = false`. -/
def inP1Mask (s : State) : Bool := inSession .p1 s && !s.scan.inData

/-- The context `P1.payload`: a session of P1, with `inData = true` and a port left to take the byte whose record meets
the row's condition. -/
def inP1Payload (cond : InRec → Bool) (s : State) : Bool :=
  inSession .p1 s && s.scan.inData &&
    match payloadPort s with
    | none => false
    | some i => cond s.ia[i.port]

/-- Row P1.MASK0 (R132). -/
def execP1Mask0 (s : State) : Host.Outcome State Fault Refusal :=
  whenSelected "P1.MASK0" (inP1Mask s) (p1MaskZero s)

/-- Row P1.MASK (R132). -/
def execP1Mask (b : Byte) (s : State) : Host.Outcome State Fault Refusal :=
  whenSelected "P1.MASK" (inP1Mask s) (p1MaskOpen b s)

/-- Row P1.PAY.STATUS (R135). -/
def execP1PayStatus (b : Byte) (s : State) : Host.Outcome State Fault Refusal :=
  whenSelected "P1.PAY.STATUS" (inP1Payload (fun _ => true) s) (payloadStep (p1Status b) s)

/-- Row P1.PAY.SYSEX (R136). -/
def execP1PaySysex (s : State) : Host.Outcome State Fault Refusal :=
  whenSelected "P1.PAY.SYSEX" (inP1Payload (fun _ => true) s) (payloadStep p1Sysex s)

/-- Row P1.PAY.NAC (R137). -/
def execP1PayNac (s : State) : Host.Outcome State Fault Refusal :=
  whenSelected "P1.PAY.NAC" (inP1Payload (fun _ => true) s) (payloadStep (p1NotACommand nonCommand) s)

/-- Row P1.PAY.DATA (R138). -/
def execP1PayData (b : Byte) (s : State) : Host.Outcome State Fault Refusal :=
  whenSelected "P1.PAY.DATA" (inP1Payload (fun r => decide (0 < r.bytesRemaining)) s) (payloadStep (p1DataInProgress b) s)

/-- Row P1.PAY.RS (R139). -/
def execP1PayRs (b : Byte) (s : State) : Host.Outcome State Fault Refusal :=
  whenSelected "P1.PAY.RS"
    (inP1Payload (fun r => r.bytesRemaining == 0 && hasRunningStatus (lengthOf s.lenTable r.lastCommand)) s)
    (payloadStep (p1RunningStatus b) s)

/-- Row P1.PAY.NOCTX (R140). -/
def execP1PayNoctx (b : Byte) (s : State) : Host.Outcome State Fault Refusal :=
  whenSelected "P1.PAY.NOCTX"
    (inP1Payload (fun r => r.bytesRemaining == 0 && !hasRunningStatus (lengthOf s.lenTable r.lastCommand)) s)
    (payloadStep (p1NoContext b) s)

end Sys2Proof.Machine
end

