-- ==== Sys2Proof/Machine/P2Decoder.lean ====
section
/-! DEFINITION. The Protocol 2 decoder (43_p2_decoder.md R165 to R181): the five-state parser, Classify, EntryCheck,
Complete and the overflow recovery, and the meanings of the rows of `P2.any` to `P2.SysEx`. -/

namespace Sys2Proof.Machine

/-! ### Filler, markers and port selection -/

/-- Filler changes nothing in any state (R166). -/
def p2Filler (s : State) : State := s

/-- `F5` in WaitMarker (R167). -/
def p2WaitMarker (s : State) : State := setP2 .portSelect none s

/-- Any other byte in WaitMarker is ignored (R167). -/
def p2WaitIgnore (_b : Byte) (s : State) : State := s

/-- A valid port index in PortSelect (R169). -/
def p2SelectValid (p : Port) (s : State) : State := setP2 .data (some p) (modIn p InRec.clear s)

/-- An invalid port index in PortSelect (R168): one report, and no record is touched. -/
def p2SelectInvalid (b : Byte) (s : State) : State :=
  setP2 .waitMarker none (raiseCondition .invalidPort b s)

/-! ### Messages -/

/-- RxOverflow in P2 (R177). -/
def p2Overflow (p : Port) (s : State) : State :=
  setP2 .waitMarker none (modIn p InRec.resetRecord (raiseCondition .rxOverflow (portByte p) s))

/-- `Complete(p)` (R176): the full buffer is delivered. -/
def p2Complete (p : Port) (s : State) : State :=
  setP2 .data s.selectedPort (modIn p InRec.clear (emit (.deliver p s.ia[p].bytes) s))

/-- The completion test of R173 and R174. -/
def p2CompleteIfFull (p : Port) (s : State) : State :=
  if s.ia[p].bytesRemaining ≤ s.ia[p].length then p2Complete p s else s

/-- Entry to FixedLen with a total length, and `EntryCheck(p)` (R172, R173). -/
def p2EnterFixed (p : Port) (total : Nat) (s : State) : State :=
  p2CompleteIfFull p (setP2 .fixedLen s.selectedPort (modIn p (InRec.withRemaining total) s))

/-- `Classify(p)` (R172). -/
def p2Classify (p : Port) (s : State) : State :=
  if s.ia[p].lastCommand = marker then setP2 .portSelect none s
  else
    match lengthOf s.lenTable s.ia[p].lastCommand with
    | .variableLen => setP2 .sysEx s.selectedPort s
    | .fixed total => p2EnterFixed p total s
    | .notACommand => p2EnterFixed p implied3 s

/-- A status byte in Data (R170). -/
def p2DataStatus (b : Byte) (p : Port) (s : State) : State :=
  let s1 := modIn p (InRec.withCommand b) s
  match append p b s1 with
  | none => p2Overflow p s1
  | some t => p2Classify p t

/-- A data byte in Data, a running-status continuation (R171). -/
def p2DataData (b : Byte) (p : Port) (s : State) : State :=
  match append p s.ia[p].lastCommand s with
  | none => p2Overflow p s
  | some t =>
    match append p b t with
    | none => p2Overflow p t
    | some u => p2Classify p u

/-- A byte in FixedLen (R174). -/
def p2FixedByte (b : Byte) (p : Port) (s : State) : State :=
  match append p b s with
  | none => p2Overflow p s
  | some t => p2CompleteIfFull p t

/-- `F7` in SysEx (R175). -/
def p2SysexEnd (p : Port) (s : State) : State :=
  match append p sysexEnd s with
  | none => p2Overflow p s
  | some t => p2Complete p t

/-- Any other byte in SysEx (R175, R179). -/
def p2SysexByte (b : Byte) (p : Port) (s : State) : State :=
  match append p b s with
  | none => p2Overflow p s
  | some t => t

/-! ### The packet -/

/-- A step of the states that have a selected port (10_state.md R29). -/
def withSelected (f : Port → State → State) (s : State) : State :=
  match s.selectedPort with
  | none => s
  | some p => f p s

/-- `P2_STEP(b)` (R165). -/
def p2Byte (b : Byte) (s : State) : State :=
  if b = filler then p2Filler s
  else
    match s.p2State with
    | .waitMarker => if b = marker then p2WaitMarker s else p2WaitIgnore b s
    | .portSelect =>
      match validPort s.nIn b with
      | some p => p2SelectValid p s
      | none => p2SelectInvalid b s
    | .data => if isStatus b then withSelected (p2DataStatus b) s else withSelected (p2DataData b) s
    | .fixedLen => withSelected (p2FixedByte b) s
    | .sysEx => if b = sysexEnd then withSelected p2SysexEnd s else withSelected (p2SysexByte b) s

/-- `P2_DECODE` (R165): byte 0 is never fed. -/
def p2Decode (pkt : List Byte) (s : State) : State :=
  setCursor 0 (scanBytes p2Byte (pkt.drop 1) (setCursor 1 s))

/-! ### Rows -/

/-- A context of the P2 decoder: a session of P2 in this decoder state. -/
def inP2 (st : P2State) (s : State) : Bool := inSession .p2 s && s.p2State == st

/-- A row of the states that have a selected port. -/
def onSelected (row : String) (st : P2State) (f : Port → State → State) (s : State) : Host.Outcome State Fault Refusal :=
  match s.selectedPort with
  | none => .refused (.rowNotSelected row)
  | some p => whenSelected row (inP2 st s) (f p s)

/-- Row P2.FILL (R166). -/
def execP2Fill (s : State) : Host.Outcome State Fault Refusal :=
  whenSelected "P2.FILL" (inSession .p2 s) (p2Filler s)

/-- Row P2.WAIT.MARK (R167). -/
def execP2WaitMark (s : State) : Host.Outcome State Fault Refusal :=
  whenSelected "P2.WAIT.MARK" (inP2 .waitMarker s) (p2WaitMarker s)

/-- Row P2.WAIT.OTHER (R167). -/
def execP2WaitOther (b : Byte) (s : State) : Host.Outcome State Fault Refusal :=
  whenSelected "P2.WAIT.OTHER" (inP2 .waitMarker s) (p2WaitIgnore b s)

/-- Row P2.SEL.VALID (R169). -/
def execP2SelValid (b : Byte) (s : State) : Host.Outcome State Fault Refusal :=
  match validPort s.nIn b with
  | none => .refused (.rowNotSelected "P2.SEL.VALID")
  | some p => whenSelected "P2.SEL.VALID" (inP2 .portSelect s) (p2SelectValid p s)

/-- Row P2.SEL.INVALID (R168). -/
def execP2SelInvalid (b : Byte) (s : State) : Host.Outcome State Fault Refusal :=
  whenSelected "P2.SEL.INVALID" (inP2 .portSelect s && (validPort s.nIn b).isNone) (p2SelectInvalid b s)

/-- Row P2.DATA.STATUS (R170). -/
def execP2DataStatus (b : Byte) (s : State) : Host.Outcome State Fault Refusal :=
  onSelected "P2.DATA.STATUS" .data (p2DataStatus b) s

/-- Row P2.DATA.DATA (R171). -/
def execP2DataData (b : Byte) (s : State) : Host.Outcome State Fault Refusal :=
  onSelected "P2.DATA.DATA" .data (p2DataData b) s

/-- Row P2.FIXED (R174). -/
def execP2Fixed (b : Byte) (s : State) : Host.Outcome State Fault Refusal :=
  onSelected "P2.FIXED" .fixedLen (p2FixedByte b) s

/-- Row P2.SYSEX.END (R175). -/
def execP2SysexEnd (s : State) : Host.Outcome State Fault Refusal :=
  onSelected "P2.SYSEX.END" .sysEx p2SysexEnd s

/-- Row P2.SYSEX.BYTE (R175). -/
def execP2SysexByte (b : Byte) (s : State) : Host.Outcome State Fault Refusal :=
  onSelected "P2.SYSEX.BYTE" .sysEx (p2SysexByte b) s

end Sys2Proof.Machine
end

