-- ==== Sys2Proof/Machine/P2Fifo.lean ====
section
/-! DEFINITION. The Protocol 2 output FIFO (44_p2_fifo.md R190 to R197): the push, PushClassify in its six cases, and
the meanings of the rows of `FIFO.push`. -/

namespace Sys2Proof.Machine

/-! ### PushClassify (R191 to R197), on the record that has just been written -/

/-- SysEx begin (R192). -/
def OutFifo.pushedSysex (f : OutFifo) : OutFifo := f.withSpan 0

/-- SysEx end (R193). -/
def OutFifo.pushedSysexEnd (f : OutFifo) : OutFifo := f.markSendable.withSpan 0

/-- Another status byte, of fixed length with `n` data bytes (R194). -/
def OutFifo.pushedStatus (n : Nat) (f : OutFifo) : OutFifo :=
  if n = 0 then (f.withSpan n).markSendable else f.withSpan n

/-- A status byte that is no command (R195). -/
def OutFifo.pushedNotACommand (f : OutFifo) : OutFifo := (f.withSpan 0).markSendable

/-- The countdown before a data byte is counted: a countdown at 0 restarts from the span (R196). -/
def OutFifo.reloaded (f : OutFifo) : Nat := if f.remaining = 0 then f.commandSpanLength else f.remaining

/-- A data byte inside a fixed-length span (R196). -/
def OutFifo.pushedDataSpan (f : OutFifo) : OutFifo :=
  if f.reloaded - 1 = 0 then { f with remaining := 0 }.markSendable else { f with remaining := f.reloaded - 1 }

/-- A data byte with no fixed-length span (R197). -/
def OutFifo.pushedDataNospan (f : OutFifo) : OutFifo := f

/-- `PushClassify(q, b)` (R191 to R197). -/
def OutFifo.pushClassify (t : LenTable) (b : Byte) (f : OutFifo) : OutFifo :=
  if b = sysexBegin then f.pushedSysex
  else if b = sysexEnd then f.pushedSysexEnd
  else if isStatus b then
    match lengthOf t b with
    | .fixed total => f.pushedStatus (total - 1)
    | .variableLen => f.pushedSysex
    | .notACommand => f.pushedNotACommand
  else if 0 < f.commandSpanLength then f.pushedDataSpan
  else f.pushedDataNospan

/-! ### The push -/

/-- FifoOverflow (R190): one report; no FIFO field is reset (90_conflicts.md C6). -/
def fifoOverflow (q : Port) (s : State) : State := raiseCondition .fifoOverflow (portByte q) s

/-- One byte of a push: the FifoWrite and one case of PushClassify, or the overflow (R190). -/
def pushOne (q : Port) (b : Byte) (classify : OutFifo → OutFifo) (s : State) : State :=
  if s.fifo[q].full then fifoOverflow q s else modFifo q (fun f => classify (f.write b)) s

/-- `FIFO_PUSH(q, bytes)` (R190): the first byte that finds the FIFO full ends the call. -/
def fifoPush (q : Port) : List Byte → State → State
  | [], s => s
  | b :: bs, s =>
    if s.fifo[q].full then fifoOverflow q s
    else fifoPush q bs (pushOne q b (OutFifo.pushClassify s.lenTable b) s)

/-! ### Rows -/

/-- The context `FIFO.push`: a session of P2 and an output port below `N_OUT` (10_state.md R33). -/
def inFifoPush (q : Port) (s : State) : Bool := inSession .p2 s && decide (q.val < s.nOut.val)

/-- Row FIFO.SYSEX (R192). -/
def execFifoSysex (q : Port) (s : State) : Host.Outcome State Fault Refusal :=
  whenSelected "FIFO.SYSEX" (inFifoPush q s) (pushOne q sysexBegin OutFifo.pushedSysex s)

/-- Row FIFO.SYSEX_END (R193). -/
def execFifoSysexEnd (q : Port) (s : State) : Host.Outcome State Fault Refusal :=
  whenSelected "FIFO.SYSEX_END" (inFifoPush q s) (pushOne q sysexEnd OutFifo.pushedSysexEnd s)

/-- Row FIFO.STATUS (R194). -/
def execFifoStatus (q : Port) (b : Byte) (s : State) : Host.Outcome State Fault Refusal :=
  whenSelected "FIFO.STATUS" (inFifoPush q s) (pushOne q b (OutFifo.pushedStatus (dataBytesOf (lengthOf s.lenTable b))) s)

/-- Row FIFO.NAC (R195). -/
def execFifoNac (q : Port) (s : State) : Host.Outcome State Fault Refusal :=
  whenSelected "FIFO.NAC" (inFifoPush q s) (pushOne q nonCommand OutFifo.pushedNotACommand s)

/-- Row FIFO.DATA.SPAN (R196). -/
def execFifoDataSpan (q : Port) (b : Byte) (s : State) : Host.Outcome State Fault Refusal :=
  whenSelected "FIFO.DATA.SPAN" (inFifoPush q s && decide (0 < s.fifo[q].commandSpanLength))
    (pushOne q b OutFifo.pushedDataSpan s)

/-- Row FIFO.DATA.NOSPAN (R197). -/
def execFifoDataNospan (q : Port) (b : Byte) (s : State) : Host.Outcome State Fault Refusal :=
  whenSelected "FIFO.DATA.NOSPAN" (inFifoPush q s && s.fifo[q].commandSpanLength == 0)
    (pushOne q b OutFifo.pushedDataNospan s)

end Sys2Proof.Machine
end

