-- ==== Sys2Proof/Machine/P2Encoder.lean ====
section
/-! DEFINITION. The Protocol 2 encoder/packer (45_p2_encoder.md R205 to R219): the pull phase, slots and groups, the
drain of the ports, padding and the submission, and the meanings of the rows of `P2.out`. -/

namespace Sys2Proof.Machine

/-! ### Slots and groups -/

/-- The group trailer, after exactly 12 slot bytes (R207). -/
def closeGroup (s : State) : State :=
  setEnc { s.enc with out := s.enc.out ++ trailer, k := 0, groups := s.enc.groups + 1 } s

/-- One slot byte, before the test for a full group (R207). -/
def addSlot (b : Byte) (s : State) : State := setEnc { s.enc with out := s.enc.out ++ [b], k := s.enc.k + 1 } s

/-- `EmitSlot(b)`: the only way a slot byte enters `out` (R207). -/
def emitSlot (b : Byte) (s : State) : State :=
  if s.enc.k + 1 = group then closeGroup (addSlot b s) else addSlot b s

/-- The loop of `PadGroup`, over at most `left` slots (R213). -/
def padSlots : Nat → State → State
  | 0, s => s
  | left + 1, s => if s.enc.k = 0 then s else padSlots left (emitSlot filler s)

/-- `PadGroup()` (R213): filler until the group closes; a group has at most 12 slots left. -/
def padGroup (s : State) : State := padSlots group s

/-! ### Switches and FIFO bytes -/

/-- What a port switch owes next is written (assumption 13). -/
def setDue (d : P2Due) (s : State) : State := setEnc { s.enc with due := d } s

/-- The first byte of a switch marker to port q, `F5` (R211). -/
def emitMarker (q : Port) (s : State) : State := setDue (.index q) (emitSlot marker s)

/-- The second byte of a switch marker: the port index, and the port becomes the last output port (R211). -/
def emitSwitchPort (q : Port) (s : State) : State :=
  setDue .priming (setLastOutputPort q (emitSlot (portByte q) s))

/-- The switch marker `F5 q` (R211). -/
def emitSwitchMarker (q : Port) (s : State) : State := emitSwitchPort q (emitMarker q s)

/-- A priming byte is due: the next FIFO byte is data and the port's last status is known (R212). -/
def primeDue (f : OutFifo) : Bool := isData f.peek && f.lastCommand != 0x00

/-- The priming byte of port q (R212): the FIFO is not popped. -/
def emitPrime (q : Port) (s : State) : State := setDue .slot (emitSlot s.fifo[q].lastCommand s)

/-- `Prime(q)` (R212). -/
def prime (q : Port) (s : State) : State := if primeDue s.fifo[q] then emitPrime q s else setDue .slot s

/-- `Switch(q)` (R211). -/
def switchTo (q : Port) (s : State) : State := prime q (emitSwitchMarker q s)

/-- What emitting the head byte leaves of a FIFO: it is popped, and a status byte becomes the last command (R214). -/
def OutFifo.sent (f : OutFifo) : OutFifo := if isStatus f.peek then f.pop.withCommand f.peek else f.pop

/-- `EmitFifoByte(q)` (R214). -/
def emitFifoByte (q : Port) (s : State) : State :=
  setDue .slot (emitSlot s.fifo[q].peek (modFifo q OutFifo.sent s))

/-! ### Draining -/

/-- `DrainPort(q)` over at most `left` turns of its loop (R210): the capacity stop first (R208), then the deferred
switch (R213), the switch (R211) or a FIFO byte (R214). -/
def drainLoop (q : Port) : Nat → State → State
  | 0, s => s
  | left + 1, s =>
    if s.fifo[q].sendableLength = 0 then s
    else if s.enc.groups = maxSubframes then s
    else if s.lastOutputPort = some q then drainLoop q left (emitFifoByte q s)
    else if switchLimit ≤ s.enc.k then drainLoop q left (padGroup s)
    else drainLoop q left (switchTo q s)

/-- `DrainPort(q)` (R210). Its loop turns once for each sendable byte, and at most twice more: to pad and to switch. -/
def drainPort (q : Port) (s : State) : State := drainLoop q (s.fifo[q].sendableLength + 2) s

/-- Packing stopped on this port (R208). -/
def packStopped (q : Port) (s : State) : Bool :=
  s.enc.groups == maxSubframes && decide (0 < s.fifo[q].sendableLength)

/-- The visit loop over the ports that are left (R209). -/
def visitPorts : List Port → State → State
  | [], s => s
  | q :: qs, s =>
    let t := drainPort q s
    if packStopped q t then t else visitPorts qs t

/-- The port at which the visit starts (R209). -/
def visitStart (s : State) : Nat :=
  match s.lastOutputPort with
  | some q => q.val
  | none => 0

/-- The visit order: every output port once, cyclically from `lastOutputPort` (R209). -/
def visitOrder (s : State) : List Port :=
  (List.range s.nOut.val).map (fun t => Fin.ofNat maxPortSlots ((visitStart s + t) % s.nOut.val))

/-- `Pack()` (R206 to R215): the visit loop, then the final padding (R215). -/
def pack (s : State) : State :=
  let t := visitPorts (visitOrder s) s
  if 0 < t.enc.k then padGroup t else t

/-- The sub-frame descriptors `(14g, 14)` (30_encoding.md R91). -/
def p2Subframes (groups : Nat) : List (Nat × Nat) := (List.range groups).map (fun g => (subframe * g, subframe))

/-- `SubmitP2()` (R216, R217). -/
def p2Submit (s : State) : State :=
  if s.enc.out = [] then s else submit 2 (p2Subframes s.enc.groups) s

/-- One producer is asked and its answer is pushed (R205). -/
def p2PullPort (s : State) (q : Port) : State := fifoPush q (pullAnswer q s) (emitPull q s)

/-- The pull phase (R205): ascending. -/
def p2Pull (s : State) : State := (pulledPorts s).foldl p2PullPort s

/-- `P2_ENCODE()` (R205). -/
def p2Encode (s : State) : State :=
  setEnc EncState.init (p2Submit (pack (p2Pull (setEnc EncState.init s))))

/-! ### Rows -/

/-- The P2 packer runs in a session of P2, only while `active = false` (46_control.md R235), and below the packet's
capacity (R208). -/
def inP2Out (s : State) : Bool := inSession .p2 s && !s.active && decide (s.enc.groups < maxSubframes)

/-- Output port q has a sendable byte. -/
def hasSendable (q : Port) (s : State) : Bool := decide (q.val < s.nOut.val) && decide (0 < s.fifo[q].sendableLength)

/-- A switch to port q is due: it has a sendable byte, and it is not the last output port (R210). -/
def switchDue (q : Port) (s : State) : Bool := hasSendable q s && s.lastOutputPort != some q

/-- Row P2OUT.MARKER (R211): the `F5` of a switch to port q (assumption 13). -/
def execP2outMarker (q : Port) (s : State) : Host.Outcome State Fault Refusal :=
  whenSelected "P2OUT.MARKER"
    (inP2Out s && s.enc.due == .slot && switchDue q s && decide (s.enc.k < switchLimit))
    (emitMarker q s)

/-- Row P2OUT.PORT (R211): the second byte of a switch marker, right after its `F5` (assumption 13). -/
def execP2outPort (q : Port) (s : State) : Host.Outcome State Fault Refusal :=
  whenSelected "P2OUT.PORT"
    (inP2Out s && s.enc.due == .index q && switchDue q s && decide (s.enc.k ≤ switchLimit))
    (emitSwitchPort q s)

/-- Row P2OUT.PRIME (R212): right after the switch marker of the last output port, which the model's own field `due`
says (assumption 13). -/
def execP2outPrime (b : Byte) (s : State) : Host.Outcome State Fault Refusal :=
  match s.lastOutputPort with
  | none => .refused (.rowNotSelected "P2OUT.PRIME")
  | some q =>
    whenSelected "P2OUT.PRIME"
      (inP2Out s && s.enc.due == .priming && hasSendable q s && primeDue s.fifo[q] && b == s.fifo[q].lastCommand &&
        decide (s.enc.k < group))
      (emitPrime q s)

/-- A FIFO byte of port q may come next: no port index is owed, and no priming byte is (R210 to R212). -/
def fifoByteNext (q : Port) (s : State) : Bool :=
  s.enc.due == .slot || (s.enc.due == .priming && !primeDue s.fifo[q])

/-- Row P2OUT.FIFO (R214): no switch is under way (assumption 13). -/
def execP2outFifo (b : Byte) (s : State) : Host.Outcome State Fault Refusal :=
  match s.lastOutputPort with
  | none => .refused (.rowNotSelected "P2OUT.FIFO")
  | some q =>
    whenSelected "P2OUT.FIFO"
      (inP2Out s && fifoByteNext q s && hasSendable q s && b == s.fifo[q].peek && decide (s.enc.k < group))
      (emitFifoByte q s)

/-- Row P2OUT.PAD (R213): a switch to some port is deferred. -/
def execP2outPad (s : State) : Host.Outcome State Fault Refusal :=
  whenSelected "P2OUT.PAD"
    (inP2Out s && s.enc.due == .slot && decide (switchLimit ≤ s.enc.k) && decide (s.enc.k < group) &&
      allPorts.any (fun q => switchDue q s))
    (padGroup s)

/-- Row P2OUT.FINALPAD (R215): the visit loop has ended inside a group. -/
def execP2outFinalPad (s : State) : Host.Outcome State Fault Refusal :=
  whenSelected "P2OUT.FINALPAD"
    (inP2Out s && s.enc.due == .slot && decide (0 < s.enc.k) && decide (s.enc.k < group) &&
      allPorts.all (fun q => !hasSendable q s))
    (padGroup s)

/-- Row P2OUT.TRAILER (R207): the instant at which `k` is 12. The row's first byte is its token, and its action emits
`01` and then `00` (assumption 13). -/
def execP2outTrailer (s : State) : Host.Outcome State Fault Refusal :=
  whenSelected "P2OUT.TRAILER" (inP2Out s && s.enc.k == group) (closeGroup s)

end Sys2Proof.Machine
end

