-- ==== Sys2Proof/Machine/Control.lean ====
section
/-! DEFINITION. The four host operations (46_control.md R230 to R234), each one atomic transaction (20_memory.md R70).
An operation the spec refuses changes no state of the spec's and emits nothing, and the machine goes on
(93_implementation_defined.md, treatment `refuse`; assumption 4). -/

namespace Sys2Proof.Machine

/-! ### RESET -/

/-- How many buffer cells a RESET leaves unspecified: the buffers and the FIFOs of every port, of `CAP` bytes each. -/
def freshCells : Nat := 2 * maxPortSlots * cap

/-- Unspecified contents of the `slot`-th buffer, of the draws that start at `draw` (assumption 3). -/
def freshBuf (draw slot : Nat) : Vector Byte cap :=
  Vector.ofFn (fun x : Fin cap => Config.freeByte (draw + slot * cap + x.val))

/-- The first receive request (R230) and the next one (R231). -/
def rearm (s : State) : State := emit .rxRearm (setRxPosted true s)

/-- An accepted RESET (R230): every state element takes its reset value. -/
def startSession (c : SessionConfig) (s : State) : State :=
  rearm
    { s with
      sessionOpen := true
      variant := c.variant
      nIn := c.nIn
      nOut := c.nOut
      cursor := 0
      ia := Vector.ofFn (fun p : Port => InRec.fresh (freshBuf s.freeDraws p.val))
      scan := ScanState.init
      p2State := .waitMarker
      selectedPort := none
      fifo := Vector.ofFn (fun q : Port => OutFifo.fresh (freshBuf s.freeDraws (maxPortSlots + q.val)))
      enc := EncState.init
      seq := 0x00
      lastOutputPort := none
      active := false
      freeDraws := s.freeDraws + freshCells }

/-- Row RESET (R230). -/
def execReset (cfg : BitVec 16) (s : State) : Host.Outcome State Fault Refusal :=
  match readCfg cfg with
  | none => .next (refuse .illegalCfg s)
  | some c => .next (accept (startSession c s))

/-! ### RX_PACKET -/

/-- The decoder of the session's variant (R231). -/
def decodePacket (pkt : List Byte) (s : State) : State :=
  match s.variant with
  | .p1 => p1Decode pkt s
  | .p2 => p2Decode pkt s

/-- An accepted RX_PACKET (R231). -/
def receive (pkt : List Byte) (s : State) : State := rearm (decodePacket pkt (setRxPosted false s))

/-- Row RX_PACKET (R231, 70_reset_and_hazards.md R271). -/
def execRxPacket (pkt : List Byte) (s : State) : Host.Outcome State Fault Refusal :=
  if s.sessionOpen then
    if s.rxPosted then .next (accept (receive pkt s)) else .next (refuse .noReceivePosted s)
  else .next (refuse .noSession s)

/-! ### TX_KICK and TX_DONE -/

/-- `ENCODE()` (R234). -/
def encodePacket (s : State) : State :=
  match s.variant with
  | .p1 => p1Encode s
  | .p2 => p2Encode s

/-- ENCODE with the answers that come with the operation: an answer of more than 3 bytes refuses the operation, which
then leaves the state `before` it as it was (R238). -/
def encodeOrRefuse (before s : State) : State :=
  if answersLegal s then accept (encodePacket s) else refuse .pullAnswerTooLong before

/-- Row TX_KICK (R232): a no-op while a transmission is in flight. -/
def execTxKick (s : State) : Host.Outcome State Fault Refusal :=
  if s.sessionOpen then
    if s.active then .next (accept s) else .next (encodeOrRefuse s s)
  else .next (refuse .noSession s)

/-- Row TX_DONE (R233): a stale completion is a no-op; a failed one is handled as a completed one. -/
def execTxDone (_ok : Bool) (s : State) : Host.Outcome State Fault Refusal :=
  if s.sessionOpen then
    if s.active then .next (encodeOrRefuse s (setActive false s)) else .next (accept s)
  else .next (refuse .noSession s)

end Sys2Proof.Machine
end

