-- ==== Sys2Proof/Machine/LengthTable.lean ====
section
/-! DEFINITION. The rows of context `lengthOf` (40_length_table.md R120 to R125). A query writes no state of the
spec's; its result is latched in the model's own field `lenAnswer`. -/

namespace Sys2Proof.Machine

/-- The answer of a `lengthOf(b)` query (40_length_table.md R120). -/
def queryLength (b : Byte) (s : State) : State := setLenAnswer (lengthOf s.lenTable b) s

/-- Row LEN.DATA (40_length_table.md R121): a data byte 00–7F: `NotACommand`. -/
def execLenData (b : Byte) (s : State) : Host.Outcome State Fault Refusal := .next (queryLength b s)

/-- Row LEN.CHAN8 (40_length_table.md R122): a channel status byte 80–8F: `Fixed(CHAN_LEN[8])`. -/
def execLenChan8 (b : Byte) (s : State) : Host.Outcome State Fault Refusal := .next (queryLength b s)

/-- Row LEN.CHAN9 (40_length_table.md R122): a channel status byte 90–9F: `Fixed(CHAN_LEN[9])`. -/
def execLenChan9 (b : Byte) (s : State) : Host.Outcome State Fault Refusal := .next (queryLength b s)

/-- Row LEN.CHANA (40_length_table.md R122): a channel status byte A0–AF: `Fixed(CHAN_LEN[A])`. -/
def execLenChanA (b : Byte) (s : State) : Host.Outcome State Fault Refusal := .next (queryLength b s)

/-- Row LEN.CHANB (40_length_table.md R122): a channel status byte B0–BF: `Fixed(CHAN_LEN[B])`. -/
def execLenChanB (b : Byte) (s : State) : Host.Outcome State Fault Refusal := .next (queryLength b s)

/-- Row LEN.CHANC (40_length_table.md R122): a channel status byte C0–CF: `Fixed(CHAN_LEN[C])`. -/
def execLenChanC (b : Byte) (s : State) : Host.Outcome State Fault Refusal := .next (queryLength b s)

/-- Row LEN.CHAND (40_length_table.md R122): a channel status byte D0–DF: `Fixed(CHAN_LEN[D])`. -/
def execLenChanD (b : Byte) (s : State) : Host.Outcome State Fault Refusal := .next (queryLength b s)

/-- Row LEN.CHANE (40_length_table.md R122): a channel status byte E0–EF: `Fixed(CHAN_LEN[E])`. -/
def execLenChanE (b : Byte) (s : State) : Host.Outcome State Fault Refusal := .next (queryLength b s)

/-- Row LEN.SYSEX (40_length_table.md R123): `F0`: `Variable`. -/
def execLenSysex (s : State) : Host.Outcome State Fault Refusal := .next (queryLength sysexBegin s)

/-- Row LEN.SYSF1 (40_length_table.md R124): `F1`: `Fixed(SYS_LEN[F1])`. -/
def execLenSysF1 (s : State) : Host.Outcome State Fault Refusal := .next (queryLength 0xF1 s)

/-- Row LEN.SYSF2 (40_length_table.md R124): `F2`: `Fixed(SYS_LEN[F2])`. -/
def execLenSysF2 (s : State) : Host.Outcome State Fault Refusal := .next (queryLength 0xF2 s)

/-- Row LEN.SYSF3 (40_length_table.md R124): `F3`: `Fixed(SYS_LEN[F3])`. -/
def execLenSysF3 (s : State) : Host.Outcome State Fault Refusal := .next (queryLength 0xF3 s)

/-- Row LEN.SYSF4 (40_length_table.md R124): `F4`: `Fixed(SYS_LEN[F4])`. -/
def execLenSysF4 (s : State) : Host.Outcome State Fault Refusal := .next (queryLength 0xF4 s)

/-- Row LEN.SYSF5 (40_length_table.md R124): `F5`: `Fixed(SYS_LEN[F5])`. -/
def execLenSysF5 (s : State) : Host.Outcome State Fault Refusal := .next (queryLength 0xF5 s)

/-- Row LEN.SYSF6 (40_length_table.md R124): `F6`: `Fixed(SYS_LEN[F6])`. -/
def execLenSysF6 (s : State) : Host.Outcome State Fault Refusal := .next (queryLength 0xF6 s)

/-- Row LEN.SYSF7 (40_length_table.md R124): `F7`: `Fixed(SYS_LEN[F7])`. -/
def execLenSysF7 (s : State) : Host.Outcome State Fault Refusal := .next (queryLength 0xF7 s)

/-- Row LEN.SYSF8 (40_length_table.md R124): `F8`: `Fixed(SYS_LEN[F8])`. -/
def execLenSysF8 (s : State) : Host.Outcome State Fault Refusal := .next (queryLength 0xF8 s)

/-- Row LEN.SYSF9 (40_length_table.md R124): `F9`: `Fixed(SYS_LEN[F9])`. -/
def execLenSysF9 (s : State) : Host.Outcome State Fault Refusal := .next (queryLength 0xF9 s)

/-- Row LEN.SYSFA (40_length_table.md R124): `FA`: `Fixed(SYS_LEN[FA])`. -/
def execLenSysFA (s : State) : Host.Outcome State Fault Refusal := .next (queryLength 0xFA s)

/-- Row LEN.SYSFB (40_length_table.md R124): `FB`: `Fixed(SYS_LEN[FB])`. -/
def execLenSysFB (s : State) : Host.Outcome State Fault Refusal := .next (queryLength 0xFB s)

/-- Row LEN.SYSFC (40_length_table.md R124): `FC`: `Fixed(SYS_LEN[FC])`. -/
def execLenSysFC (s : State) : Host.Outcome State Fault Refusal := .next (queryLength 0xFC s)

/-- Row LEN.SYSFD (40_length_table.md R124): `FD`: `Fixed(SYS_LEN[FD])`. -/
def execLenSysFD (s : State) : Host.Outcome State Fault Refusal := .next (queryLength 0xFD s)

/-- Row LEN.SYSFE (40_length_table.md R124): `FE`: `Fixed(SYS_LEN[FE])`. -/
def execLenSysFE (s : State) : Host.Outcome State Fault Refusal := .next (queryLength 0xFE s)

/-- Row LEN.FF (40_length_table.md R125): `FF`: `NotACommand`. -/
def execLenFF (s : State) : Host.Outcome State Fault Refusal := .next (queryLength nonCommand s)

end Sys2Proof.Machine
end

