-- ==== Sys2Proof/Machine/Dispatch.lean ====
section
/-! DEFINITION. The meaning of every instruction: one arm per row of spec/opcode_table.json, each one call of that
row's own meaning. -/

namespace Sys2Proof.Machine

def exec (i : Instr) (s : State) : Host.Outcome State Fault Refusal :=
  match i with
  | .reset cfg => Sys2Proof.Machine.execReset cfg s
  | .rxPacket pkt => Sys2Proof.Machine.execRxPacket pkt s
  | .txKick => Sys2Proof.Machine.execTxKick s
  | .txDone ok => Sys2Proof.Machine.execTxDone ok s
  | .lenData b => Sys2Proof.Machine.execLenData b s
  | .lenChan8 b => Sys2Proof.Machine.execLenChan8 b s
  | .lenChan9 b => Sys2Proof.Machine.execLenChan9 b s
  | .lenChanA b => Sys2Proof.Machine.execLenChanA b s
  | .lenChanB b => Sys2Proof.Machine.execLenChanB b s
  | .lenChanC b => Sys2Proof.Machine.execLenChanC b s
  | .lenChanD b => Sys2Proof.Machine.execLenChanD b s
  | .lenChanE b => Sys2Proof.Machine.execLenChanE b s
  | .lenSysex => Sys2Proof.Machine.execLenSysex s
  | .lenSysF1 => Sys2Proof.Machine.execLenSysF1 s
  | .lenSysF2 => Sys2Proof.Machine.execLenSysF2 s
  | .lenSysF3 => Sys2Proof.Machine.execLenSysF3 s
  | .lenSysF4 => Sys2Proof.Machine.execLenSysF4 s
  | .lenSysF5 => Sys2Proof.Machine.execLenSysF5 s
  | .lenSysF6 => Sys2Proof.Machine.execLenSysF6 s
  | .lenSysF7 => Sys2Proof.Machine.execLenSysF7 s
  | .lenSysF8 => Sys2Proof.Machine.execLenSysF8 s
  | .lenSysF9 => Sys2Proof.Machine.execLenSysF9 s
  | .lenSysFA => Sys2Proof.Machine.execLenSysFA s
  | .lenSysFB => Sys2Proof.Machine.execLenSysFB s
  | .lenSysFC => Sys2Proof.Machine.execLenSysFC s
  | .lenSysFD => Sys2Proof.Machine.execLenSysFD s
  | .lenSysFE => Sys2Proof.Machine.execLenSysFE s
  | .lenFF => Sys2Proof.Machine.execLenFF s
  | .p1Mask0 => Sys2Proof.Machine.execP1Mask0 s
  | .p1Mask b => Sys2Proof.Machine.execP1Mask b s
  | .p1PayStatus b => Sys2Proof.Machine.execP1PayStatus b s
  | .p1PaySysex => Sys2Proof.Machine.execP1PaySysex s
  | .p1PayNac => Sys2Proof.Machine.execP1PayNac s
  | .p1PayData b => Sys2Proof.Machine.execP1PayData b s
  | .p1PayRs b => Sys2Proof.Machine.execP1PayRs b s
  | .p1PayNoctx b => Sys2Proof.Machine.execP1PayNoctx b s
  | .p2Fill => Sys2Proof.Machine.execP2Fill s
  | .p2WaitMark => Sys2Proof.Machine.execP2WaitMark s
  | .p2WaitOther b => Sys2Proof.Machine.execP2WaitOther b s
  | .p2SelValid b => Sys2Proof.Machine.execP2SelValid b s
  | .p2SelInvalid b => Sys2Proof.Machine.execP2SelInvalid b s
  | .p2DataStatus b => Sys2Proof.Machine.execP2DataStatus b s
  | .p2DataData b => Sys2Proof.Machine.execP2DataData b s
  | .p2Fixed b => Sys2Proof.Machine.execP2Fixed b s
  | .p2SysexEnd => Sys2Proof.Machine.execP2SysexEnd s
  | .p2SysexByte b => Sys2Proof.Machine.execP2SysexByte b s
  | .fifoSysex q => Sys2Proof.Machine.execFifoSysex q s
  | .fifoSysexEnd q => Sys2Proof.Machine.execFifoSysexEnd q s
  | .fifoStatus q b => Sys2Proof.Machine.execFifoStatus q b s
  | .fifoNac q => Sys2Proof.Machine.execFifoNac q s
  | .fifoDataSpan q b => Sys2Proof.Machine.execFifoDataSpan q b s
  | .fifoDataNospan q b => Sys2Proof.Machine.execFifoDataNospan q b s
  | .p2outMarker q => Sys2Proof.Machine.execP2outMarker q s
  | .p2outPort q => Sys2Proof.Machine.execP2outPort q s
  | .p2outPrime b => Sys2Proof.Machine.execP2outPrime b s
  | .p2outFifo b => Sys2Proof.Machine.execP2outFifo b s
  | .p2outPad => Sys2Proof.Machine.execP2outPad s
  | .p2outFinalPad => Sys2Proof.Machine.execP2outFinalPad s
  | .p2outTrailer => Sys2Proof.Machine.execP2outTrailer s
  | .p1outSeq b => Sys2Proof.Machine.execP1outSeq b s
  | .p1outRsvd => Sys2Proof.Machine.execP1outRsvd s
  | .p1outMask b => Sys2Proof.Machine.execP1outMask b s
  | .p1outPayload b => Sys2Proof.Machine.execP1outPayload b s
  | .p1outEnd => Sys2Proof.Machine.execP1outEnd s

end Sys2Proof.Machine
end

