-- ==== Sys2Proof/Machine/Fetch.lean ====
section
/-! DEFINITION. Fetching a request: the context each channel reads its bytes in, from the state (30_encoding.md R99:
which rule applies within a row is decided by the state), and the request that stands for a word of the opcode table. -/

namespace Sys2Proof.Machine

/-- The context of the next decoder byte, in the session's variant. -/
def rxContext (s : State) : Option Context :=
  if s.sessionOpen then
    match s.variant with
    | .p1 =>
      if s.scan.inData then
        match payloadPort s with
        | none => none
        | some i => some (.p1Payload s.ia[i.port].bytesRemaining (lengthOf s.lenTable s.ia[i.port].lastCommand))
      else some .p1Mask
    | .p2 => some (.p2 s.p2State s.nIn)
  else none

/-- The context a channel's bytes are read in. -/
def contextOf (s : State) (c : Channel) : Option Context :=
  match c with
  | .host => some .host
  | .lengthOf => some .lengthOf
  | .rxByte => rxContext s
  | .push q => some (.fifoPush q s.fifo[q].commandSpanLength)
  | .p2Out slot => some (.p2Out slot)
  | .p1Out pos => some (.p1Out pos)

/-- The oldest request leaves the inbox, and its answers become the operation's free inputs. -/
def takeRequest (r : Request) (rest : List Request) (s : State) : State := { s with inbox := rest, env := r.env }

/-- The request that stands for a word of spec/opcode_table.json, with silent producers (assumption 7). -/
def tableRequest (nbits w : Nat) : Request :=
  ⟨(tableFrame nbits w).1, (tableFrame nbits w).2, EnvAnswers.silent⟩

/-- The state with a request placed first in the inbox. -/
def offer (r : Request) (s : State) : State := { s with inbox := r :: s.inbox }

end Sys2Proof.Machine
end

