-- ==== Sys2Proof/Machine/Step.lean ====
section
/-! DEFINITION. One step: the oldest request is decoded in its context and executed whole (20_memory.md R70, R71).
With no request the machine does nothing and its state is kept (60_exceptions.md R267). -/

namespace Sys2Proof.Machine

/-- One step of the machine. -/
def step (s : State) : Host.Outcome State Fault Refusal :=
  match s.inbox with
  | [] => .next s
  | r :: rest =>
    match contextOf s r.chan with
    | none => .refused .noContext
    | some c =>
      match decode c r.bytes with
      | .error e => .refused (.undecodable e)
      | .ok i => exec i (takeRequest r rest s)

/-- `s` with a word of spec/opcode_table.json placed where `step` takes its next request (assumption 8). -/
def State.withFetchWord (s : State) (nbits w : Nat) : State := offer (tableRequest nbits w) s

end Sys2Proof.Machine
end

