-- ==== Sys2Proof/Safety.lean ====
section
/-! DEFINITION. What counts as a legal state and a legal step, in the terms the statements use: the invariants of
10_state.md R25, R29, R31 and R40, the tail bound of 41_p1_decoder.md R143, the grammar of a P1 body (30_encoding.md
R82), and the frames of the byte rows. -/

namespace Sys2Proof.Machine

/-! ### Invariants -/

/-- `lastCommand ∈ {0x00} ∪ {0x80..0xFE}` (R25). -/
def commandLegal (b : Byte) : Bool := b == 0x00 || (isStatus b && b != nonCommand)

/-- R25 for one record: `deliverableLength ≤ length ≤ 64`, and a legal `lastCommand`. -/
def InRec.ok (r : InRec) : Bool :=
  decide (r.deliverableLength ≤ r.length) && decide (r.length ≤ cap) && commandLegal r.lastCommand

/-- R25 for every input record. -/
abbrev InputOk (s : State) : Prop := ∀ p : Port, s.ia[p].ok = true

/-- R31 for one FIFO, with the range of its read cursor (R30). -/
def OutFifo.ok (f : OutFifo) : Bool :=
  decide (f.sendableLength ≤ f.length) && decide (f.length ≤ cap) && decide (f.rd < cap) &&
    decide (f.wr = (f.rd + f.length) % cap) && decide (f.remaining ≤ f.commandSpanLength)

/-- R31 for every FIFO. -/
abbrev FifoOk (s : State) : Prop := ∀ q : Port, s.fifo[q].ok = true

/-- What `selectedPort` and the selected record hold in each P2 decoder state: no port outside Data, FixedLen and SysEx,
and a port below `N_IN` in them (R29); an empty buffer in Data, and in FixedLen fewer bytes than the message of at most
three that is awaited (43_p2_decoder.md R178). -/
def p2Consistent (s : State) : Bool :=
  match s.p2State, s.selectedPort with
  | .waitMarker, none => true
  | .portSelect, none => true
  | .data, some p => decide (p.val < s.nIn.val) && s.ia[p].length == 0
  | .fixedLen, some p =>
    decide (p.val < s.nIn.val) && decide (s.ia[p].length < s.ia[p].bytesRemaining) && decide (s.ia[p].bytesRemaining ≤ 3)
  | .sysEx, some p => decide (p.val < s.nIn.val)
  | _, _ => false

/-- The P2 decoder state is consistent, a session of P1 leaves it at its reset value, and a session of P2 leaves every
`deliverableLength` at 0 (43_p2_decoder.md R181). -/
abbrev P2DecoderOk (s : State) : Prop :=
  p2Consistent s = true ∧ (s.variant = .p1 → s.p2State = .waitMarker) ∧
    (s.variant = .p2 → ∀ p : Port, s.ia[p].deliverableLength = 0)

/-- An input record at its reset value but for the buffer contents, which the spec leaves unspecified (R26). -/
def InRec.isFresh (r : InRec) : Bool := r == InRec.fresh r.buf

/-- A FIFO at its reset value but for the buffer contents (R32). -/
def OutFifo.isFresh (f : OutFifo) : Bool := f == OutFifo.fresh f.buf

/-- The state the session's variant does not use holds its reset value (R27, R33, R40). -/
abbrev UnusedOk (s : State) : Prop :=
  (s.variant = .p1 →
    s.ia[(8 : Port)].isFresh = true ∧ (∀ q : Port, s.fifo[q].isFresh = true) ∧ s.p2State = .waitMarker ∧
      s.selectedPort = none ∧ s.lastOutputPort = none) ∧
  (s.variant = .p2 →
    (∀ p : Port, s.nIn.val ≤ p.val → s.ia[p].isFresh = true) ∧
      (∀ q : Port, s.nOut.val ≤ q.val → s.fifo[q].isFresh = true) ∧ s.seq = 0x00 ∧ s.scan = ScanState.init ∧
      (∀ p : Port, s.selectedPort = some p → p.val < s.nIn.val))

/-- A P1 record's undelivered tail and the data bytes it still expects (41_p1_decoder.md R143): together at most three,
at most two of them expected, and no tail when none is expected. -/
def InRec.tailOk (r : InRec) : Bool :=
  decide (r.deliverableLength ≤ r.length) && decide (r.bytesRemaining ≤ 2) &&
    decide (r.length + r.bytesRemaining ≤ r.deliverableLength + 3) &&
    (r.bytesRemaining != 0 || r.length == r.deliverableLength)

/-- The tail bound for every record of a P1 session, under a legal length table. -/
abbrev P1TailOk (s : State) : Prop :=
  s.lenTable.wf = true ∧ (s.variant = .p1 → ∀ p : Port, s.ia[p].tailOk = true)

/-- The P1 scan state (41_p1_decoder.md R133): in data mode some bit is set, no bit below the channel cursor is, and
out of data mode the mask is used up. -/
abbrev ScanOk (s : State) : Prop :=
  (s.scan.inData = true ↔ s.scan.mask ≠ 0x00) ∧
    ∀ i : MaskPort, i.val < s.scan.channel → s.scan.mask.getLsbD i.val = false

/-- A FIFO that is full with nothing sendable (44_p2_fifo.md R199). -/
abbrev Wedged (q : Port) (s : State) : Prop := s.fifo[q].length = cap ∧ s.fifo[q].sendableLength = 0

/-- A session is open and the receive request is posted (46_control.md R236). -/
abbrev ReceivePosted (s : State) : Prop := s.sessionOpen = true → s.rxPosted = true

/-! ### Events -/

/-- The events emitted between `s` and a later state `t`. -/
def newEvents (s t : State) : List Event := t.events.drop s.events.length

/-- The messages delivered to port `p`, in order. -/
def deliveriesTo (p : Port) (es : List Event) : List (List Byte) :=
  es.filterMap (fun e =>
    match e with
    | .deliver q bytes => if q = p then some bytes else none
    | _ => none)

/-- An event of a decoder: DELIVER, or the REPORT of an input condition. -/
def Event.ofDecoder (e : Event) : Bool :=
  match e with
  | .deliver _ _ => true
  | .report code _ => code == 1 || code == 2
  | _ => false

/-- The PULL events of an encoder invocation (42_p1_encoder.md R151). -/
def pullEvents (s : State) : List Event := (pulledPorts s).map (fun q => .pull q pullMax s.env.pull[q])

/-- The pull phase of a P2 encoder invocation (45_p2_encoder.md R205, 46_control.md R241): every output port is asked
once, ascending, and a push that does not fit its FIFO reports right after its PULL (44_p2_fifo.md R190). -/
def p2PullEvents (s : State) : List Event :=
  (allPorts.filter (fun q => decide (q.val < s.nOut.val))).flatMap (fun q =>
    .pull q 3 s.env.pull[q] ::
      if 64 < s.fifo[q].length + (s.env.pull[q]).length then [.report 3 (BitVec.ofNat 8 q.val)] else [])

/-- The messages that the records of `s` have ready, to ascending ports (41_p1_decoder.md R142). -/
def readyMessages (s : State) : List (Port × List Byte) :=
  (allPorts.filter (fun p => decide (0 < s.ia[p].deliverableLength))).map (fun p => (p, s.ia[p].deliverable))

/-- How many groups hold these slot bytes: twelve to a group (00_scope.md R8). This and the next three definitions are for
the statements alone, so they write the spec's numbers out and do not use the model's constants. -/
def groupCount (slots : List Byte) : Nat := (slots.length + 11) / 12

/-- The P2 packet of given slot bytes (30_encoding.md R88): cut into groups of twelve, the last one filled with `FF`,
each followed by `01 00`. -/
def packetOf (slots : List Byte) : List Byte :=
  (List.range (groupCount slots)).flatMap (fun g =>
    let slotBytes := (slots.drop (12 * g)).take 12
    slotBytes ++ List.replicate (12 - slotBytes.length) 0xFF ++ [0x01, 0x00])

/-- The sub-frames of the P2 packet of given slot bytes: one of 14 bytes for each group (30_encoding.md R91). -/
def framesOf (slots : List Byte) : List (Nat × Nat) := (List.range (groupCount slots)).map (fun g => (14 * g, 14))

/-- The slot bytes that send `first` for the last output port and then, after a switch to port `r` whose last command is
`command`, `second`: filler to the end of a group with less than three slots left (45_p2_encoder.md R213), the marker
`F5 r` (R211), the priming byte where the next byte is data and the command is known (R212), and the bytes (R214). -/
def switchedSlots (first : List Byte) (r : Port) (command : Byte) (second : List Byte) : List Byte :=
  first ++ List.replicate (if 10 ≤ first.length % 12 then 12 - first.length % 12 else 0) 0xFF ++
    [0xF5, BitVec.ofNat 8 r.val] ++
    (if (second.getD 0 0).getLsbD 7 = false ∧ command ≠ 0x00 then [command] else []) ++ second

/-- What follows the transport's answer to a TX_SUBMIT (42_p1_encoder.md R157, 45_p2_encoder.md R217). -/
def submitEvents (variantArg : Byte) (bytes : List Byte) (subframes : List (Nat × Nat)) (accepted : Bool) : List Event :=
  if accepted then [.txSubmit bytes subframes true]
  else [.txSubmit bytes subframes false, .report 4 variantArg]

/-! ### The grammar of a P1 body (30_encoding.md R82, R83) -/

/-- The payload bytes of a body with their ports, `m` being the bits of the current mask whose byte is still to come:
when no bit is left, the next byte is a mask. -/
def p1Payloads (m : Byte) : List Byte → List (MaskPort × Byte)
  | [] => []
  | b :: bs =>
    match lowbit m 0 with
    | none => p1Payloads b bs
    | some i => (i, b) :: p1Payloads (clearBit m i.val) bs

/-- The payload bytes a P1 packet carries for one port. -/
def payloadFor (i : MaskPort) (pkt : List Byte) : List Byte :=
  ((p1Payloads 0x00 (pkt.drop 2)).filter (fun x => decide (x.1 = i))).map (fun x => x.2)

/-! ### Preconditions of the byte rows -/

/-- The P1 decoder owes its next payload byte to port `i`, which does not discard (41_p1_decoder.md R133). -/
abbrev OwedTo (i : MaskPort) (s : State) : Prop :=
  s.sessionOpen = true ∧ s.variant = .p1 ∧ s.scan.inData = true ∧ payloadPort s = some i ∧ s.scan.discard[i] = false

/-- The scan state after a payload byte for port `i` (41_p1_decoder.md R133). -/
def scanAfter (i : MaskPort) (c : ScanState) : ScanState :=
  { c with
    mask := clearBit c.mask i.val
    channel := i.val + 1
    inData := decide (clearBit c.mask i.val ≠ 0x00) }

/-- The P2 decoder is in state `st` with port `p` selected. -/
abbrev Selected (st : P2State) (p : Port) (s : State) : Prop :=
  s.sessionOpen = true ∧ s.variant = .p2 ∧ s.p2State = st ∧ s.selectedPort = some p

/-- Output port `q` can be pushed to: a P2 session, `q < N_OUT`, and the FIFO of R31 is not full. -/
abbrev Pushable (q : Port) (s : State) : Prop :=
  s.sessionOpen = true ∧ s.variant = .p2 ∧ q.val < s.nOut.val ∧ s.fifo[q].ok = true ∧ s.fifo[q].length < cap

/-- The P2 packer may emit the next byte: a P2 session, no transmission in flight, and room for it (46_control.md R235,
45_p2_encoder.md R208). -/
abbrev Packing (s : State) : Prop :=
  s.sessionOpen = true ∧ s.variant = .p2 ∧ s.active = false ∧ s.enc.groups < maxSubframes

/-- The P1 encoder may emit the next byte: a P1 session and no transmission in flight (46_control.md R235). -/
abbrev P1Encoding (s : State) : Prop := s.sessionOpen = true ∧ s.variant = .p1 ∧ s.active = false

/-- An encoder invocation is due: TX_KICK with `active = false`, or TX_DONE with `active = true`, in a session, with
answers of at most 3 bytes (46_control.md R232, R233, R238). -/
def Encodes (i : Instr) (s : State) : Prop :=
  s.sessionOpen = true ∧ answersLegal s = true ∧
    ((i = .txKick ∧ s.active = false) ∨ (∃ ok, i = .txDone ok ∧ s.active = true))

/-! ### Frames of the byte rows -/

/-- `t` differs from `s` only in the record of input port `p`, the P1 scan state and the events. -/
def OnlyInput (p : Port) (s t : State) : Prop :=
  t = { s with ia := t.ia, scan := t.scan, events := t.events } ∧ ∀ p' : Port, p' ≠ p → t.ia[p'] = s.ia[p']

/-- `t` differs from `s` only in the record of input port `p`, the P2 decoder state, the selected port and the events. -/
def OnlyP2Input (p : Port) (s t : State) : Prop :=
  t = { s with ia := t.ia, p2State := t.p2State, selectedPort := t.selectedPort, events := t.events } ∧
    ∀ p' : Port, p' ≠ p → t.ia[p'] = s.ia[p']

/-- `t` differs from `s` only in the FIFO of output port `q`. -/
def OnlyFifo (q : Port) (s t : State) : Prop :=
  t = { s with fifo := t.fifo } ∧ ∀ q' : Port, q' ≠ q → t.fifo[q'] = s.fifo[q']

/-- What an RxOverflow in P1 leaves (41_p1_decoder.md R141): one report, an emptied record with this last command, and
a port that discards for the rest of the packet. -/
def OverflowedP1 (i : MaskPort) (command : Byte) (s t : State) : Prop :=
  OnlyInput i.port s t ∧ t.events = s.events ++ [.report 1 (portByte i.port)] ∧
    t.scan = { scanAfter i s.scan with discard := s.scan.discard.set i true } ∧
    t.ia[i.port].lastCommand = command ∧ t.ia[i.port].bytesRemaining = 0 ∧ t.ia[i.port].length = 0 ∧
    t.ia[i.port].deliverableLength = 0

end Sys2Proof.Machine
end

