-- ==== Sys2Proof/Certificates/Slice0/Obligations.lean ====
section
/-! DEFINITION. The statements for the provers. Each docstring names the rule of the spec it rests on. -/

open Sys2Proof Sys2Proof.Machine

/-! ### Steps, decoding and encoding -/

/-- The oldest request is decoded in its context and executed whole, with its answers as the free inputs; with no request
the state is kept. The inbox, oldest first, and the answers a request carries are the model's choice (assumptions 8
and 11), and so is the channel that gives the context (assumption 6). The spec says that operations run one after
another (20_memory.md R71), that a row is read in its context (30_encoding.md R99), and that the core does nothing
between operations (60_exceptions.md R267). -/
def Obligations.StepRunsTheDecodedRequest : Prop :=
  (∀ (s : State) (r : Request) (rest : List Request) (c : Context) (i : Instr),
    s.inbox = r :: rest → contextOf s r.chan = some c → decode c r.bytes = .ok i →
      i.wf = true ∧ step s = exec i { s with inbox := rest, env := r.env }) ∧
  (∀ s : State, s.inbox = [] → step s = .next s)

/-- Every well-formed instruction is decoded from its own bytes, in every context that admits it (30_encoding.md R99). -/
def Obligations.DecodeInvertsEncode : Prop :=
  ∀ (c : Context) (i : Instr), i.wf = true → c.admits i = true → decode c (encode i) = .ok i

/-- What the decoder reads is well formed, belongs to its context, and has exactly the bytes that were read
(30_encoding.md R99). -/
def Obligations.EncodeInvertsDecode : Prop :=
  ∀ (c : Context) (bytes : List Byte) (i : Instr), decode c bytes = .ok i →
    i.wf = true ∧ c.admits i = true ∧ encode i = bytes

/-- In every decoder context every byte value is exactly one row's (30_encoding.md R97). -/
def Obligations.ByteGrammarIsTotal : Prop :=
  ∀ (c : Context) (b : Byte),
    (c = .lengthOf ∨ c = .p1Mask ∨ (∃ r l, c = .p1Payload r l) ∨ (∃ st n, c = .p2 st n) ∨ (∃ q n, c = .fifoPush q n)) →
      ∃ i : Instr, i.wf = true ∧ c.admits i = true ∧ encode i = [b] ∧
        ∀ j : Instr, j.wf = true → c.admits j = true → encode j = [b] → j = i

/-- A few words written out from spec/opcode_table.json decode to their rows. The byte of a row is the table's
(30_encoding.md R99). How a host operation is written as bytes, the operation byte before its operands, the CFG word high
byte first, and the status byte of TX_DONE, is the model's (assumption 5): R92 gives the codes and operands only. That a
switch marker's context names its port, and that a trailer and an end marker are known by one byte, is the model's too
(assumption 13). -/
def Obligations.WrittenOutWordsDecode : Prop :=
  decode .host [0x00, 0x05, 0x51] = .ok (.reset 0x0551) ∧
  decode .host [0x01, 0x00, 0xF5] = .ok (.rxPacket [0x00, 0xF5]) ∧
  decode .host [0x03, 0x01] = .ok (.txDone true) ∧
  decode .lengthOf [0b10010011] = .ok (.lenChan9 0x93) ∧
  decode .p1Mask [0b00000101] = .ok (.p1Mask 0x05) ∧
  decode (.p1Payload 2 (.fixed 3)) [0b01000000] = .ok (.p1PayData 0x40) ∧
  decode (.p2 .waitMarker 5) [0b11110101] = .ok .p2WaitMark ∧
  decode (.p2 .portSelect 5) [0b00000101] = .ok (.p2SelInvalid 0x05) ∧
  decode (.p2 .sysEx 5) [0b11111111] = .ok .p2Fill ∧
  decode (.fifoPush 3 2) [0b00000001] = .ok (.fifoDataSpan 3 0x01) ∧
  decode (.p2Out (.switchMarker 4)) [0b11110101] = .ok (.p2outMarker 4) ∧
  decode (.p2Out .switchPort) [0b00000100] = .ok (.p2outPort 4) ∧
  decode (.p2Out .groupTrailer) [0b00000001] = .ok .p2outTrailer ∧
  decode (.p1Out .mask) [0b11111111] = .ok (.p1outMask 0xFF) ∧
  decode (.p1Out .endMarker) [0b00000000] = .ok .p1outEnd

/-- Each byte step inside RX_PACKET is the meaning of the row that the byte decodes to in the state's context
(41_p1_decoder.md R130, 43_p2_decoder.md R165, 30_encoding.md R99), and so is each byte of a push (44_p2_fifo.md R190,
R191). In the P2 states that have a selected port, the port is there (10_state.md R29). That RX_PACKET is these byte
steps in order is said by `P1ReceiveDeliversInPortOrder` and `P2ReceiveEndsWithRearm`. -/
def Obligations.EveryByteStepRunsItsRow : Prop :=
  (∀ (s : State) (c : Context) (b : Byte) (i : Instr),
    rxContext s = some c → (s.variant = .p2 → p2Consistent s = true) → decode c [b] = .ok i →
      exec i s = .next (match s.variant with
        | .p1 => p1Byte b s
        | .p2 => p2Byte b s)) ∧
  (∀ (s : State) (q : Port) (b : Byte) (i : Instr),
    s.sessionOpen = true → s.variant = .p2 → q.val < s.nOut.val →
      decode (.fifoPush q s.fifo[q].commandSpanLength) [b] = .ok i → exec i s = .next (fifoPush q [b] s))

/-! ### RESET -/

/-- 30_encoding.md R94 and 46_control.md R230: a CFG word with its reserved bits 0 and both counts in 5..9 starts a
session with that configuration, every record empty, and one RX_REARM; any other CFG word changes nothing and emits
nothing. That the machine goes on then and notes the reason is the model's choice (assumption 4). -/
def Obligations.ResetStartsOrRefusesASession : Prop :=
  ∀ (cfg : BitVec 16) (s : State),
    if cfg.extractLsb' 1 3 = 0 ∧ cfg.extractLsb' 12 4 = 0 ∧
        5 ≤ (cfg.extractLsb' 4 4).toNat ∧ (cfg.extractLsb' 4 4).toNat ≤ 9 ∧
        5 ≤ (cfg.extractLsb' 8 4).toNat ∧ (cfg.extractLsb' 8 4).toNat ≤ 9 then
      ∃ t, exec (.reset cfg) s = .next t ∧ t.sessionOpen = true ∧
        t.variant = (if cfg.getLsbD 0 then .p2 else .p1) ∧
        t.nIn.val = (cfg.extractLsb' 4 4).toNat ∧ t.nOut.val = (cfg.extractLsb' 8 4).toNat ∧
        (∀ p : Port, t.ia[p].isFresh = true) ∧ (∀ q : Port, t.fifo[q].isFresh = true) ∧
        t.p2State = .waitMarker ∧ t.selectedPort = none ∧ t.seq = 0x00 ∧ t.lastOutputPort = none ∧
        t.active = false ∧ t.rxPosted = true ∧ t.events = s.events ++ [.rxRearm] ∧ t.lenTable = s.lenTable ∧
        t.verdict = .accepted
    else exec (.reset cfg) s = .next { s with verdict := .refused .illegalCfg }

/-- The operations the spec refuses change nothing and emit nothing: every operation but RESET before the first accepted
RESET (70_reset_and_hazards.md R271), an RX_PACKET with no receive outstanding (46_control.md R231), and an operation
for which a producer that would be asked answers more than 3 bytes (46_control.md R238). That the machine goes on and
notes the reason is the model's choice (assumption 4), and so is that a long answer refuses the whole operation before
its first event, with `active` kept (assumption 14): R238 says only that such an answer is refused. -/
def Obligations.RefusedOperationsChangeNothing : Prop :=
  (∀ (s : State) (i : Instr), s.sessionOpen = false →
    (i = .txKick ∨ (∃ pkt, i = .rxPacket pkt) ∨ (∃ ok, i = .txDone ok)) →
      exec i s = .next { s with verdict := .refused .noSession }) ∧
  (∀ (s : State) (pkt : List Byte), s.sessionOpen = true → s.rxPosted = false →
    exec (.rxPacket pkt) s = .next { s with verdict := .refused .noReceivePosted }) ∧
  (∀ (s : State) (q : Port) (ok : Bool), s.sessionOpen = true → q.val < s.nOut.val →
    (s.variant = .p1 → q.val < 8) → 3 < (s.env.pull[q]).length →
      (s.active = false → exec .txKick s = .next { s with verdict := .refused .pullAnswerTooLong }) ∧
      (s.active = true → exec (.txDone ok) s = .next { s with verdict := .refused .pullAnswerTooLong }))

/-- The state the model starts in (70_reset_and_hazards.md R270). The configuration, the buffer contents and the length
table are the model's (assumptions 1, 2 and 9); every other value is R270's. -/
def Obligations.ResetStateHoldsTheResetValues : Prop :=
  State.reset.sessionOpen = true ∧ State.reset.variant = .p1 ∧ State.reset.nIn = 5 ∧ State.reset.nOut = 5 ∧
  State.reset.lenTable = defaultLenTable ∧
  (∀ p : Port, State.reset.ia[p] = InRec.fresh (Vector.replicate 64 0)) ∧
  (∀ q : Port, State.reset.fifo[q] = OutFifo.fresh (Vector.replicate 64 0)) ∧
  State.reset.p2State = .waitMarker ∧ State.reset.selectedPort = none ∧ State.reset.seq = 0 ∧
  State.reset.lastOutputPort = none ∧ State.reset.active = false ∧ State.reset.rxPosted = true ∧
  State.reset.events = [.rxRearm]

/-- Every invariant stated below holds in the reset state: R25, R29, R31 and R40 of 10_state.md, the tail bound of
41_p1_decoder.md R143 under a table of 40_length_table.md R127, the scan state of 41_p1_decoder.md R133, and 46_control.md
R236. The reset state is the model's choice: it is a P1 session, so that the clauses on a P2 session hold there for want
of one (assumption 1), and its length table is the default one (assumption 9). -/
def Obligations.InvariantsHoldAtReset : Prop :=
  InputOk State.reset ∧ FifoOk State.reset ∧ P2DecoderOk State.reset ∧ UnusedOk State.reset ∧ P1TailOk State.reset ∧
    ScanOk State.reset ∧ ReceivePosted State.reset

/-! ### The CommandLengthTable -/

/-- 40_length_table.md R122: a channel status byte has the length of its high nibble, which a legal table has in {2, 3},
and the default table gives 3 to 8, 9, A, B and E and 2 to C and D. That `State.reset` holds the default table is the
model's choice (assumption 9): R122 gives a parameter with a default. A query writes nothing but the model's answer
(assumption 11). -/
def Obligations.ChannelStatusLengths : Prop :=
  (∀ (s : State) (b : Byte), s.lenTable.wf = true →
    ((Instr.lenChan8 b).wf = true →
      exec (.lenChan8 b) s = .next { s with lenAnswer := some (.fixed s.lenTable.chan[0]) }) ∧
    ((Instr.lenChan9 b).wf = true →
      exec (.lenChan9 b) s = .next { s with lenAnswer := some (.fixed s.lenTable.chan[1]) }) ∧
    ((Instr.lenChanA b).wf = true →
      exec (.lenChanA b) s = .next { s with lenAnswer := some (.fixed s.lenTable.chan[2]) }) ∧
    ((Instr.lenChanB b).wf = true →
      exec (.lenChanB b) s = .next { s with lenAnswer := some (.fixed s.lenTable.chan[3]) }) ∧
    ((Instr.lenChanC b).wf = true →
      exec (.lenChanC b) s = .next { s with lenAnswer := some (.fixed s.lenTable.chan[4]) }) ∧
    ((Instr.lenChanD b).wf = true →
      exec (.lenChanD b) s = .next { s with lenAnswer := some (.fixed s.lenTable.chan[5]) }) ∧
    ((Instr.lenChanE b).wf = true →
      exec (.lenChanE b) s = .next { s with lenAnswer := some (.fixed s.lenTable.chan[6]) }) ∧
    (∀ k : Fin 7, s.lenTable.chan[k] = 2 ∨ s.lenTable.chan[k] = 3)) ∧
  State.reset.lenTable.chan = #v[3, 3, 3, 3, 2, 2, 3]

/-- 40_length_table.md R124: each byte F1..FE has its own table entry, which a legal table has in {1, 2}, and the default
table gives 2 to F1, F2 and F3 and 1 to F4..FE. That `State.reset` holds the default table is the model's choice
(assumption 9), and the widened `SYS_LEN[F2] = 3`, which 40_length_table.md R127 lets a model take, is not a legal table
here (assumption 9). A query writes nothing but the model's answer (assumption 11). -/
def Obligations.SystemByteLengths : Prop :=
  (∀ s : State, s.lenTable.wf = true →
    exec .lenSysF1 s = .next { s with lenAnswer := some (.fixed s.lenTable.sys[0]) } ∧
    exec .lenSysF2 s = .next { s with lenAnswer := some (.fixed s.lenTable.sys[1]) } ∧
    exec .lenSysF3 s = .next { s with lenAnswer := some (.fixed s.lenTable.sys[2]) } ∧
    exec .lenSysF4 s = .next { s with lenAnswer := some (.fixed s.lenTable.sys[3]) } ∧
    exec .lenSysF5 s = .next { s with lenAnswer := some (.fixed s.lenTable.sys[4]) } ∧
    exec .lenSysF6 s = .next { s with lenAnswer := some (.fixed s.lenTable.sys[5]) } ∧
    exec .lenSysF7 s = .next { s with lenAnswer := some (.fixed s.lenTable.sys[6]) } ∧
    exec .lenSysF8 s = .next { s with lenAnswer := some (.fixed s.lenTable.sys[7]) } ∧
    exec .lenSysF9 s = .next { s with lenAnswer := some (.fixed s.lenTable.sys[8]) } ∧
    exec .lenSysFA s = .next { s with lenAnswer := some (.fixed s.lenTable.sys[9]) } ∧
    exec .lenSysFB s = .next { s with lenAnswer := some (.fixed s.lenTable.sys[10]) } ∧
    exec .lenSysFC s = .next { s with lenAnswer := some (.fixed s.lenTable.sys[11]) } ∧
    exec .lenSysFD s = .next { s with lenAnswer := some (.fixed s.lenTable.sys[12]) } ∧
    exec .lenSysFE s = .next { s with lenAnswer := some (.fixed s.lenTable.sys[13]) } ∧
    (∀ k : Fin 14, s.lenTable.sys[k] = 1 ∨ s.lenTable.sys[k] = 2)) ∧
  State.reset.lenTable.sys = #v[2, 2, 2, 1, 1, 1, 1, 1, 1, 1, 1, 1, 1, 1]

/-- 40_length_table.md R121, R123 and the value of R125: data bytes and `FF` are no command, and `F0` is the only byte
of variable length. -/
def Obligations.NonFixedLengths : Prop :=
  ∀ (s : State) (b : Byte),
    (b.toNat < 0x80 → exec (.lenData b) s = .next { s with lenAnswer := some .notACommand }) ∧
    exec .lenSysex s = .next { s with lenAnswer := some .variableLen } ∧
    exec .lenFF s = .next { s with lenAnswer := some .notACommand } ∧
    (lengthOf s.lenTable b = .variableLen ↔ b = 0xF0)

/-- Only an accepted RESET writes the configuration, and nothing writes the length table (10_state.md R20,
40_length_table.md R126). -/
def Obligations.OnlyResetWritesTheConfiguration : Prop :=
  ∀ (i : Instr) (s t : State), exec i s = .next t →
    t.lenTable = s.lenTable ∧
      ((∀ cfg, i ≠ .reset cfg) →
        t.variant = s.variant ∧ t.nIn = s.nIn ∧ t.nOut = s.nOut ∧ t.sessionOpen = s.sessionOpen)

/-! ### The Protocol 1 decoder -/

/-- 41_p1_decoder.md R132: out of data mode, `00` changes nothing and any other byte opens a group. -/
def Obligations.MaskByteOpensAGroup : Prop :=
  ∀ (s : State) (b : Byte), s.sessionOpen = true → s.variant = .p1 → s.scan.inData = false →
    exec .p1Mask0 s = .next s ∧
    (b ≠ 0x00 → exec (.p1Mask b) s =
      .next { s with scan := { s.scan with mask := b, inData := true, channel := 0 } })

/-- 41_p1_decoder.md R133: in data mode the byte goes to the lowest mask bit at or above the channel cursor, whichever
row it is; a discarding port consumes it and drops it; no other port's record changes. -/
def Obligations.PayloadByteGoesToTheNextMaskPort : Prop :=
  ∀ (s : State) (c : Context) (b : Byte) (i : Instr) (m : MaskPort),
    s.variant = .p1 → s.scan.inData = true → payloadPort s = some m → rxContext s = some c → decode c [b] = .ok i →
      ∃ t, exec i s = .next t ∧ OnlyInput m.port s t ∧
        t.scan.mask = clearBit s.scan.mask m.val ∧ t.scan.channel = m.val + 1 ∧
        (t.scan.inData = true ↔ clearBit s.scan.mask m.val ≠ 0x00) ∧
        (s.scan.discard[m] = true → t.ia = s.ia ∧ t.events = s.events ∧ t.scan.discard = s.scan.discard)

/-- 41_p1_decoder.md R135 and R136: a fixed-length status byte becomes the last command, announces its data bytes, is
appended, and is deliverable at once; `F0` does the same and announces none. A full buffer overflows, with `lastCommand`
already written (R141). -/
def Obligations.StatusByteStartsAMessage : Prop :=
  ∀ (s : State) (m : MaskPort) (i : Instr) (b : Byte) (announced : Nat),
    OwedTo m s → s.ia[m.port].length ≤ 64 →
    (i = .p1PayStatus b ∧ i.wf = true ∧ lengthOf s.lenTable b = .fixed (announced + 1)) ∨
      (i = .p1PaySysex ∧ b = 0xF0 ∧ announced = 0) →
      ∃ t, exec i s = .next t ∧
        if s.ia[m.port].length = 64 then OverflowedP1 m b s t
        else
          OnlyInput m.port s t ∧ t.events = s.events ∧ t.scan = scanAfter m s.scan ∧
          t.ia[m.port].lastCommand = b ∧ t.ia[m.port].bytesRemaining = announced ∧
          t.ia[m.port].bytes = s.ia[m.port].bytes ++ [b] ∧ t.ia[m.port].length = s.ia[m.port].length + 1 ∧
          t.ia[m.port].deliverableLength = s.ia[m.port].length + 1

/-- 41_p1_decoder.md R137 and R140: `FF`, and a data byte with no context, are appended and deliverable; `lastCommand`
and `bytesRemaining` are kept. -/
def Obligations.BytesWithoutContextPassThrough : Prop :=
  ∀ (s : State) (m : MaskPort) (b : Byte), OwedTo m s → s.ia[m.port].length ≤ 64 →
    ∀ i : Instr,
      (i = .p1PayNac ∧ b = 0xFF) ∨
        (i = .p1PayNoctx b ∧ s.ia[m.port].bytesRemaining = 0 ∧
          hasRunningStatus (lengthOf s.lenTable s.ia[m.port].lastCommand) = false) →
      ∃ t, exec i s = .next t ∧
        if s.ia[m.port].length = 64 then OverflowedP1 m s.ia[m.port].lastCommand s t
        else
          OnlyInput m.port s t ∧ t.events = s.events ∧ t.scan = scanAfter m s.scan ∧
          t.ia[m.port].lastCommand = s.ia[m.port].lastCommand ∧
          t.ia[m.port].bytesRemaining = s.ia[m.port].bytesRemaining ∧
          t.ia[m.port].bytes = s.ia[m.port].bytes ++ [b] ∧ t.ia[m.port].length = s.ia[m.port].length + 1 ∧
          t.ia[m.port].deliverableLength = s.ia[m.port].length + 1

/-- 41_p1_decoder.md R138: a data byte of the message in progress is appended and counted, and the last one makes the
whole buffer deliverable. -/
def Obligations.DataByteCompletesAMessage : Prop :=
  ∀ (s : State) (m : MaskPort) (b : Byte),
    OwedTo m s → s.ia[m.port].length ≤ 64 → 0 < s.ia[m.port].bytesRemaining →
      ∃ t, exec (.p1PayData b) s = .next t ∧
        if s.ia[m.port].length = 64 then OverflowedP1 m s.ia[m.port].lastCommand s t
        else
          OnlyInput m.port s t ∧ t.events = s.events ∧ t.scan = scanAfter m s.scan ∧
          t.ia[m.port].lastCommand = s.ia[m.port].lastCommand ∧
          t.ia[m.port].bytesRemaining = s.ia[m.port].bytesRemaining - 1 ∧
          t.ia[m.port].bytes = s.ia[m.port].bytes ++ [b] ∧ t.ia[m.port].length = s.ia[m.port].length + 1 ∧
          t.ia[m.port].deliverableLength =
            (if s.ia[m.port].bytesRemaining = 1 then s.ia[m.port].length + 1 else s.ia[m.port].deliverableLength)

/-- 41_p1_decoder.md R139: a data byte under running status re-appends the last status byte before itself and starts its
countdown; either append can overflow, with one report. -/
def Obligations.RunningStatusRestoresTheStatusByte : Prop :=
  ∀ (s : State) (m : MaskPort) (b : Byte) (total : Nat),
    OwedTo m s → s.ia[m.port].length ≤ 64 → s.ia[m.port].bytesRemaining = 0 →
    lengthOf s.lenTable s.ia[m.port].lastCommand = .fixed total → 2 ≤ total →
      ∃ t, exec (.p1PayRs b) s = .next t ∧
        if 63 ≤ s.ia[m.port].length then OverflowedP1 m s.ia[m.port].lastCommand s t
        else
          OnlyInput m.port s t ∧ t.events = s.events ∧ t.scan = scanAfter m s.scan ∧
          t.ia[m.port].lastCommand = s.ia[m.port].lastCommand ∧ t.ia[m.port].bytesRemaining = total - 2 ∧
          t.ia[m.port].bytes = s.ia[m.port].bytes ++ [s.ia[m.port].lastCommand, b] ∧
          t.ia[m.port].length = s.ia[m.port].length + 2 ∧
          t.ia[m.port].deliverableLength =
            (if total = 2 then s.ia[m.port].length + 2 else s.ia[m.port].deliverableLength)

/-- 41_p1_decoder.md R130, R142, 20_memory.md R62 and 46_control.md R231, R241 for P1: a packet of fewer than 2 bytes has
no effect but the RX_REARM of every RX_PACKET. A longer one runs the byte step on its bytes from byte 2 on, in order, from
a fresh scan state, which emits reports only; then every port with deliverable bytes is delivered exactly those, ports
ascending, and keeps the bytes after them; then comes one RX_REARM. Afterwards nothing is left to deliver and the scan
state is gone. Nothing of the transmit side is touched. -/
def Obligations.P1ReceiveDeliversInPortOrder : Prop :=
  ∀ (s : State) (pkt : List Byte), s.sessionOpen = true → s.variant = .p1 → s.rxPosted = true →
    if pkt.length < 2 then
      exec (.rxPacket pkt) s = .next { s with events := s.events ++ [.rxRearm], verdict := .accepted }
    else
      ∃ t u reports, exec (.rxPacket pkt) s = .next t ∧
        u = (pkt.drop 2).foldl (fun v b => { p1Byte b v with cursor := v.cursor + 1 })
          { s with rxPosted := false, scan := ScanState.init, cursor := 2 } ∧
        u.events = s.events ++ reports ∧ (∀ e ∈ reports, ∃ p, e = .report 1 p) ∧
        t.events = u.events ++ (readyMessages u).map (fun m => .deliver m.1 m.2) ++ [.rxRearm] ∧
        (readyMessages u).Pairwise (fun a b => a.1 < b.1) ∧ (∀ m ∈ readyMessages u, m.2 ≠ []) ∧
        (∀ p : Port, t.ia[p].deliverableLength = 0 ∧ t.ia[p].lastCommand = u.ia[p].lastCommand ∧
          t.ia[p].bytesRemaining = u.ia[p].bytesRemaining ∧
          t.ia[p].length = u.ia[p].length - u.ia[p].deliverableLength ∧
          (InputOk s → t.ia[p].bytes = u.ia[p].bytes.drop u.ia[p].deliverableLength)) ∧
        t = { s with ia := t.ia, scan := ScanState.init, cursor := 0, events := t.events, verdict := .accepted }

/-- A P1 packet acts on port `m` through the payload bytes its masks announce for `m` alone (30_encoding.md R82, R83,
41_p1_decoder.md R133): two sessions whose records of `m` agree and whose packets carry the same bytes for `m` end with
the same record and the same deliveries. -/
def Obligations.P1PortsAreIsolated : Prop :=
  ∀ (s s' t t' : State) (pkt pkt' : List Byte) (m : MaskPort),
    s.sessionOpen = true → s.variant = .p1 → s.rxPosted = true →
    s'.sessionOpen = true → s'.variant = .p1 → s'.rxPosted = true →
    2 ≤ pkt.length → 2 ≤ pkt'.length → s.lenTable = s'.lenTable → s.ia[m.port] = s'.ia[m.port] →
    payloadFor m pkt = payloadFor m pkt' →
    exec (.rxPacket pkt) s = .next t → exec (.rxPacket pkt') s' = .next t' →
      t.ia[m.port] = t'.ia[m.port] ∧
        deliveriesTo m.port (newEvents s t) = deliveriesTo m.port (newEvents s' t')

/-- 41_p1_decoder.md R143: at every step of a P1 session a record's undelivered tail and the bytes it still expects stay
within one message; so after an RX_PACKET at most 2 bytes of any port wait. -/
def Obligations.StepKeepsTheP1Tail : Prop :=
  (∀ s t : State, P1TailOk s → step s = .next t → P1TailOk t) ∧
  (∀ (s t : State) (pkt : List Byte) (p : Port),
    P1TailOk s → s.sessionOpen = true → s.variant = .p1 → s.rxPosted = true → 2 ≤ pkt.length →
      exec (.rxPacket pkt) s = .next t → t.ia[p].length ≤ 2 ∧ t.ia[p].deliverableLength = 0)

/-- 41_p1_decoder.md R133: the bit the scan takes always exists, and is the lowest bit of the mask. -/
def Obligations.StepKeepsTheScanState : Prop :=
  ∀ s t : State, ScanOk s → step s = .next t → ScanOk t

/-! ### The Protocol 2 decoder -/

/-- 43_p2_decoder.md R166: filler changes nothing, in any state of the decoder; so removing every filler byte from the
body of a P2 packet changes nothing that the packet does. -/
def Obligations.FillerIsTransparent : Prop :=
  (∀ s : State, s.sessionOpen = true → s.variant = .p2 → exec .p2Fill s = .next s) ∧
  (∀ (s : State) (b : Byte) (body : List Byte), s.variant = .p2 →
    exec (.rxPacket (b :: body)) s = exec (.rxPacket (b :: body.filter (fun x => x != 0xFF))) s)

/-- 43_p2_decoder.md R165 and 30_encoding.md R86: the decoder state persists across packets. A body that arrives in two
packets leaves the same decoder state and emits the same deliveries and reports as the body in one. -/
def Obligations.BodiesFormOneStream : Prop :=
  ∀ (s t u v : State) (a b c : Byte) (x y : List Byte),
    s.sessionOpen = true → s.variant = .p2 → s.rxPosted = true →
    exec (.rxPacket (a :: (x ++ y))) s = .next t →
    exec (.rxPacket (b :: x)) s = .next u → exec (.rxPacket (c :: y)) u = .next v →
      v.ia = t.ia ∧ v.p2State = t.p2State ∧ v.selectedPort = t.selectedPort ∧
        (newEvents s v).filter (fun e => e != .rxRearm) = (newEvents s t).filter (fun e => e != .rxRearm)

/-- 43_p2_decoder.md R167: in WaitMarker `F5` leads to PortSelect with no port selected, and every other byte is
ignored. -/
def Obligations.OnlyAMarkerLeavesWaitMarker : Prop :=
  ∀ (s : State) (b : Byte), s.sessionOpen = true → s.variant = .p2 → s.p2State = .waitMarker →
    exec .p2WaitMark s = .next { s with p2State := .portSelect, selectedPort := none } ∧
    ((Instr.p2WaitOther b).wf = true → exec (.p2WaitOther b) s = .next s)

/-- 43_p2_decoder.md R168 and R169: an index byte at or above `N_IN` gives one report, returns to WaitMarker, and touches
no record; an index byte below `N_IN` selects its port, empties that port's buffer, keeps its last command, and leads to
Data. -/
def Obligations.PortIndexSelectsOrResynchronizes : Prop :=
  ∀ s : State, s.sessionOpen = true → s.variant = .p2 → s.p2State = .portSelect →
    (∀ b : Byte, b ≠ 0xFF → s.nIn.val ≤ b.toNat →
      exec (.p2SelInvalid b) s =
        .next { s with events := s.events ++ [.report 2 b], p2State := .waitMarker, selectedPort := none }) ∧
    (∀ p : Port, p.val < s.nIn.val →
      exec (.p2SelValid (BitVec.ofNat 8 p.val)) s =
        .next { s with
          ia := s.ia.set p { s.ia[p] with length := 0, deliverableLength := 0 }
          p2State := .data
          selectedPort := some p })

/-- 43_p2_decoder.md R170, R172 and R173 in Data with an empty buffer (R178): a status byte becomes the last command;
`F5` is kept as a byte and leads to PortSelect (R180), `F0` leads to SysEx, a one-byte message is delivered at once, and
a longer one waits in FixedLen for its total length. -/
def Obligations.StatusByteInDataIsClassified : Prop :=
  ∀ (s : State) (p : Port) (b : Byte),
    Selected .data p s → s.ia[p].length = 0 → s.lenTable.wf = true → (Instr.p2DataStatus b).wf = true →
      ∃ t, exec (.p2DataStatus b) s = .next t ∧ OnlyP2Input p s t ∧ t.ia[p].lastCommand = b ∧
        (if b = 0xF5 then
          t.p2State = .portSelect ∧ t.selectedPort = none ∧ t.ia[p].bytes = [0xF5] ∧ t.events = s.events
        else if b = 0xF0 then
          t.p2State = .sysEx ∧ t.selectedPort = some p ∧ t.ia[p].bytes = [0xF0] ∧ t.events = s.events
        else if lengthOf s.lenTable b = .fixed 1 then
          t.p2State = .data ∧ t.selectedPort = some p ∧ t.ia[p].length = 0 ∧
            t.events = s.events ++ [.deliver p [b]]
        else
          t.p2State = .fixedLen ∧ t.selectedPort = some p ∧ t.ia[p].bytes = [b] ∧
            lengthOf s.lenTable b = .fixed t.ia[p].bytesRemaining ∧ t.events = s.events)

/-- 43_p2_decoder.md R171, R172 and R173 in Data with an empty buffer (R178): a data byte is expanded to the last
command and itself. A stale `F5` leads to PortSelect (R180), `F0` to SysEx, a message of one or two bytes is delivered at
once, and a message of three bytes, or of no known command, waits in FixedLen. -/
def Obligations.DataByteInDataIsExpanded : Prop :=
  ∀ (s : State) (p : Port) (b : Byte),
    Selected .data p s → s.ia[p].length = 0 → s.lenTable.wf = true → commandLegal s.ia[p].lastCommand = true →
      ∃ t, exec (.p2DataData b) s = .next t ∧ OnlyP2Input p s t ∧ t.ia[p].lastCommand = s.ia[p].lastCommand ∧
        (if s.ia[p].lastCommand = 0xF5 then
          t.p2State = .portSelect ∧ t.selectedPort = none ∧ t.ia[p].bytes = [0xF5, b] ∧ t.events = s.events
        else if s.ia[p].lastCommand = 0xF0 then
          t.p2State = .sysEx ∧ t.selectedPort = some p ∧ t.ia[p].bytes = [0xF0, b] ∧ t.events = s.events
        else if lengthOf s.lenTable s.ia[p].lastCommand = .fixed 3 ∨ s.ia[p].lastCommand = 0x00 then
          t.p2State = .fixedLen ∧ t.selectedPort = some p ∧ t.ia[p].bytesRemaining = 3 ∧
            t.ia[p].bytes = [s.ia[p].lastCommand, b] ∧ t.events = s.events
        else
          t.p2State = .data ∧ t.selectedPort = some p ∧ t.ia[p].length = 0 ∧
            t.events = s.events ++ [.deliver p [s.ia[p].lastCommand, b]])

/-- 43_p2_decoder.md R174 and R176: every byte in FixedLen is message content (R179); when the buffer reaches the
message's length it is delivered whole and cleared. -/
def Obligations.FixedLenDeliversAtItsLength : Prop :=
  ∀ (s : State) (p : Port) (b : Byte),
    Selected .fixedLen p s → s.ia[p].length < 64 → (Instr.p2Fixed b).wf = true →
      ∃ t, exec (.p2Fixed b) s = .next t ∧ OnlyP2Input p s t ∧ t.selectedPort = some p ∧
        t.ia[p].lastCommand = s.ia[p].lastCommand ∧ t.ia[p].bytesRemaining = s.ia[p].bytesRemaining ∧
        (if s.ia[p].bytesRemaining ≤ s.ia[p].length + 1 then
          t.p2State = .data ∧ t.ia[p].length = 0 ∧ t.ia[p].deliverableLength = 0 ∧
            t.events = s.events ++ [.deliver p (s.ia[p].bytes ++ [b])]
        else
          t.p2State = .fixedLen ∧ t.ia[p].bytes = s.ia[p].bytes ++ [b] ∧ t.events = s.events)

/-- 43_p2_decoder.md R175 and R177: every byte in SysEx is appended, `F7` delivers the span, and a byte that finds the
buffer full gives one report, empties the record, and returns to WaitMarker. -/
def Obligations.SysexSpanEndsAtItsEndByte : Prop :=
  ∀ (s : State) (p : Port) (b : Byte) (i : Instr),
    Selected .sysEx p s → s.ia[p].length ≤ 64 →
    (i = .p2SysexEnd ∧ b = 0xF7) ∨ (i = .p2SysexByte b ∧ i.wf = true) →
      ∃ t, exec i s = .next t ∧ OnlyP2Input p s t ∧ t.ia[p].lastCommand = s.ia[p].lastCommand ∧
        (if s.ia[p].length = 64 then
          t.p2State = .waitMarker ∧ t.selectedPort = none ∧ t.ia[p].length = 0 ∧ t.ia[p].deliverableLength = 0 ∧
            t.ia[p].bytesRemaining = 0 ∧ t.events = s.events ++ [.report 1 (BitVec.ofNat 8 p.val)]
        else if b = 0xF7 then
          t.p2State = .data ∧ t.selectedPort = some p ∧ t.ia[p].length = 0 ∧ t.ia[p].deliverableLength = 0 ∧
            t.events = s.events ++ [.deliver p (s.ia[p].bytes ++ [0xF7])]
        else
          t.p2State = .sysEx ∧ t.selectedPort = some p ∧ t.ia[p].bytes = s.ia[p].bytes ++ [b] ∧ t.events = s.events)

/-- 10_state.md R29 and 43_p2_decoder.md R178 and R181: no port is selected outside Data, FixedLen and SysEx, a valid one
is in them, the buffer is empty in Data, FixedLen holds fewer than the at most three bytes it awaits, and no record of a
P2 session has a deliverable prefix. -/
def Obligations.StepKeepsTheP2Decoder : Prop :=
  ∀ s t : State, s.lenTable.wf = true → P2DecoderOk s → step s = .next t → P2DecoderOk t

/-- 43_p2_decoder.md R165 to R176: from WaitMarker, a marker, a valid port, a status byte of a three-byte message and
its two bytes, whatever they are but filler, deliver exactly that message to that port. -/
def Obligations.ThreeByteMessageIsDelivered : Prop :=
  ∀ (s : State) (p : Port) (b0 b d1 d2 : Byte),
    s.sessionOpen = true → s.variant = .p2 → s.rxPosted = true → s.p2State = .waitMarker → p.val < s.nIn.val →
    lengthOf s.lenTable b = .fixed 3 → b ≠ 0xF5 → d1 ≠ 0xFF → d2 ≠ 0xFF →
      ∃ t, exec (.rxPacket [b0, 0xF5, BitVec.ofNat 8 p.val, b, d1, d2]) s = .next t ∧
        t.events = s.events ++ [.deliver p [b, d1, d2], .rxRearm] ∧ t.p2State = .data ∧ t.selectedPort = some p

/-- 43_p2_decoder.md R165 and 46_control.md R231, R241 for P2: a packet runs the byte step on its bytes from byte 1 on, in
order; its deliveries and reports come in byte order, then one RX_REARM; nothing of the transmit side is touched. -/
def Obligations.P2ReceiveEndsWithRearm : Prop :=
  ∀ (s : State) (pkt : List Byte), s.sessionOpen = true → s.variant = .p2 → s.rxPosted = true →
    ∃ t u middle, exec (.rxPacket pkt) s = .next t ∧
      u = (pkt.drop 1).foldl (fun v b => { p2Byte b v with cursor := v.cursor + 1 })
        { s with rxPosted := false, cursor := 1 } ∧
      u.events = s.events ++ middle ∧ (∀ e ∈ middle, e.ofDecoder = true) ∧
      t = { u with cursor := 0, rxPosted := true, events := u.events ++ [.rxRearm], verdict := .accepted } ∧
      t = { s with ia := t.ia, p2State := t.p2State, selectedPort := t.selectedPort, cursor := 0, events := t.events,
                   verdict := .accepted }

/-! ### The Protocol 2 output FIFO -/

/-- 44_p2_fifo.md R192 and R193: `F0` opens a span and makes nothing sendable; `F7` closes it and makes everything
queued sendable. -/
def Obligations.SysexSpanBecomesSendableAtItsEnd : Prop :=
  ∀ (s : State) (q : Port), Pushable q s →
    (∃ t, exec (.fifoSysex q) s = .next t ∧ OnlyFifo q s t ∧ t.fifo[q].queued = s.fifo[q].queued ++ [0xF0] ∧
      t.fifo[q].sendableLength = s.fifo[q].sendableLength ∧ t.fifo[q].rd = s.fifo[q].rd ∧
      t.fifo[q].lastCommand = s.fifo[q].lastCommand ∧ t.fifo[q].commandSpanLength = 0 ∧ t.fifo[q].remaining = 0) ∧
    (∃ t, exec (.fifoSysexEnd q) s = .next t ∧ OnlyFifo q s t ∧ t.fifo[q].queued = s.fifo[q].queued ++ [0xF7] ∧
      t.fifo[q].sendableLength = s.fifo[q].length + 1 ∧ t.fifo[q].rd = s.fifo[q].rd ∧
      t.fifo[q].lastCommand = s.fifo[q].lastCommand ∧ t.fifo[q].commandSpanLength = 0 ∧ t.fifo[q].remaining = 0)

/-- 44_p2_fifo.md R194 and R195: another status byte of total length L opens a span of L − 1 data bytes; one without
data bytes, and `FF`, make everything queued sendable at once. -/
def Obligations.StatusByteOpensASpan : Prop :=
  ∀ (s : State) (q : Port) (b : Byte) (total : Nat), Pushable q s →
    ((Instr.fifoStatus q b).wf = true → lengthOf s.lenTable b = .fixed total →
      ∃ t, exec (.fifoStatus q b) s = .next t ∧ OnlyFifo q s t ∧ t.fifo[q].queued = s.fifo[q].queued ++ [b] ∧
        t.fifo[q].commandSpanLength = total - 1 ∧ t.fifo[q].remaining = total - 1 ∧
        t.fifo[q].rd = s.fifo[q].rd ∧ t.fifo[q].lastCommand = s.fifo[q].lastCommand ∧
        t.fifo[q].sendableLength = (if total - 1 = 0 then s.fifo[q].length + 1 else s.fifo[q].sendableLength)) ∧
    (∃ t, exec (.fifoNac q) s = .next t ∧ OnlyFifo q s t ∧ t.fifo[q].queued = s.fifo[q].queued ++ [0xFF] ∧
      t.fifo[q].commandSpanLength = 0 ∧ t.fifo[q].remaining = 0 ∧ t.fifo[q].rd = s.fifo[q].rd ∧
      t.fifo[q].lastCommand = s.fifo[q].lastCommand ∧ t.fifo[q].sendableLength = s.fifo[q].length + 1)

/-- 44_p2_fifo.md R196 and R197: inside a span a data byte is counted, a countdown at 0 restarting from the span, and the
last one makes everything queued sendable; outside a span it is only queued. -/
def Obligations.DataByteIsCountedInItsSpan : Prop :=
  ∀ (s : State) (q : Port) (b : Byte), Pushable q s →
    (0 < s.fifo[q].commandSpanLength →
      ∃ t n, exec (.fifoDataSpan q b) s = .next t ∧ OnlyFifo q s t ∧ t.fifo[q].queued = s.fifo[q].queued ++ [b] ∧
        n = (if s.fifo[q].remaining = 0 then s.fifo[q].commandSpanLength else s.fifo[q].remaining) - 1 ∧
        t.fifo[q].remaining = n ∧ t.fifo[q].commandSpanLength = s.fifo[q].commandSpanLength ∧
        t.fifo[q].rd = s.fifo[q].rd ∧ t.fifo[q].lastCommand = s.fifo[q].lastCommand ∧
        t.fifo[q].sendableLength = (if n = 0 then s.fifo[q].length + 1 else s.fifo[q].sendableLength)) ∧
    (s.fifo[q].commandSpanLength = 0 →
      ∃ t, exec (.fifoDataNospan q b) s = .next t ∧ OnlyFifo q s t ∧ t.fifo[q].queued = s.fifo[q].queued ++ [b] ∧
        t.fifo[q].remaining = s.fifo[q].remaining ∧ t.fifo[q].commandSpanLength = 0 ∧
        t.fifo[q].rd = s.fifo[q].rd ∧ t.fifo[q].lastCommand = s.fifo[q].lastCommand ∧
        t.fifo[q].sendableLength = s.fifo[q].sendableLength)

/-- 44_p2_fifo.md R190: a push that finds the FIFO full gives one report, drops that byte and every later one of the
call, and changes no FIFO. -/
def Obligations.FullFifoDropsTheRestOfThePush : Prop :=
  ∀ (s : State) (q : Port) (b : Byte) (bytes : List Byte), s.fifo[q].length = 64 →
    fifoPush q (b :: bytes) s = { s with events := s.events ++ [.report 3 (BitVec.ofNat 8 q.val)] } ∧
    ∀ i : Instr, (s.sessionOpen = true ∧ s.variant = .p2 ∧ q.val < s.nOut.val) →
      decode (.fifoPush q s.fifo[q].commandSpanLength) [b] = .ok i →
        exec i s = .next { s with events := s.events ++ [.report 3 (BitVec.ofNat 8 q.val)] }

/-- 44_p2_fifo.md R198: a push of any bytes leaves the sendable bytes that were there, in order, at the head of the
sendable bytes that are there after it. -/
def Obligations.PushKeepsTheSendableBytes : Prop :=
  ∀ (s : State) (q : Port) (bytes : List Byte), s.fifo[q].ok = true →
    ∃ more, (fifoPush q bytes s).fifo[q].sendable = s.fifo[q].sendable ++ more

/-- 10_state.md R31: every step keeps the FIFO invariants. -/
def Obligations.StepKeepsTheFifoInvariant : Prop :=
  ∀ s t : State, FifoOk s → step s = .next t → FifoOk t

/-- 44_p2_fifo.md R199: a full FIFO with nothing sendable stays so under every instruction but RESET. -/
def Obligations.OnlyResetClearsAWedgedFifo : Prop :=
  ∀ (i : Instr) (s t : State) (q : Port), Wedged q s → (∀ cfg, i ≠ .reset cfg) → exec i s = .next t →
    Wedged q t ∧ t.fifo[q] = s.fifo[q]

/-! ### The Protocol 2 encoder -/

/-- 45_p2_encoder.md R209: every output port is visited once, in cyclic order from the last output port. -/
def Obligations.VisitOrderIsCyclic : Prop :=
  ∀ s : State, (visitOrder s).Nodup ∧ (visitOrder s).length = s.nOut.val ∧
    (∀ q : Port, q ∈ visitOrder s ↔ q.val < s.nOut.val) ∧
    (∀ (k : Nat) (h : k < (visitOrder s).length),
      ((visitOrder s)[k]).val = ((match s.lastOutputPort with | some q => q.val | none => 0) + k) % s.nOut.val)

/-- 45_p2_encoder.md R211: a switch to port q sends `F5` and then the index q, which makes q the last output port; it
starts at `k ≤ 9`, so that the two bytes never cross a group trailer. That each byte is a row by itself, and that the
packer's position in the switch stands in the field `due` between them, is the model's reading (assumption 13). -/
def Obligations.SwitchMarkerNamesThePort : Prop :=
  ∀ (s : State) (q : Port), Packing s → hasSendable q s = true → s.lastOutputPort ≠ some q →
    (s.enc.due = .slot → s.enc.k < 10 →
      exec (.p2outMarker q) s = .next { s with
        enc := { s.enc with out := s.enc.out ++ [0xF5], k := s.enc.k + 1, due := .index q } }) ∧
    (s.enc.due = .index q → s.enc.k ≤ 10 →
      exec (.p2outPort q) s = .next { s with
        enc := { s.enc with out := s.enc.out ++ [BitVec.ofNat 8 q.val], k := s.enc.k + 1, due := .priming }
        lastOutputPort := some q }) ∧
    (s.enc.due = .slot → s.enc.k < 10 →
      ∃ t, exec (.p2outMarker q) s = .next t ∧
        exec (.p2outPort q) t = .next { s with
          enc := { s.enc with
            out := s.enc.out ++ [0xF5, BitVec.ofNat 8 q.val], k := s.enc.k + 2, due := .priming }
          lastOutputPort := some q })

/-- 45_p2_encoder.md R212: right after its switch marker, a port whose next byte is data and whose last status is known
has that status sent, and nothing is popped; a marker `F5 q` run before it leaves `out` ending in `F5 q` and the status.
That `due` says what comes right after a marker, for a row driven alone, is the model's reading (assumption 13): nowhere
else is the priming row selected. -/
def Obligations.PrimingByteRestoresTheStatus : Prop :=
  (∀ (s : State) (q : Port), Packing s → hasSendable q s = true → s.lastOutputPort = some q →
    s.enc.due = .priming → s.enc.k < 12 → s.fifo[q].peek.getLsbD 7 = false → s.fifo[q].lastCommand ≠ 0x00 →
      exec (.p2outPrime s.fifo[q].lastCommand) s = .next { s with
        enc := if s.enc.k = 11 then
            { s.enc with
              out := s.enc.out ++ [s.fifo[q].lastCommand, 0x01, 0x00], k := 0, groups := s.enc.groups + 1, due := .slot }
          else { s.enc with out := s.enc.out ++ [s.fifo[q].lastCommand], k := s.enc.k + 1, due := .slot } }) ∧
  (∀ (s : State) (q : Port), Packing s → hasSendable q s = true → s.lastOutputPort ≠ some q →
    s.enc.due = .slot → s.enc.k < 10 → s.fifo[q].peek.getLsbD 7 = false → s.fifo[q].lastCommand ≠ 0x00 →
      ∃ t u, exec (.p2outMarker q) s = .next t ∧ exec (.p2outPort q) t = .next u ∧
        exec (.p2outPrime s.fifo[q].lastCommand) u = .next { s with
          enc := if s.enc.k = 9 then
              { s.enc with
                out := s.enc.out ++ [0xF5, BitVec.ofNat 8 q.val, s.fifo[q].lastCommand, 0x01, 0x00]
                k := 0, groups := s.enc.groups + 1 }
            else
              { s.enc with
                out := s.enc.out ++ [0xF5, BitVec.ofNat 8 q.val, s.fifo[q].lastCommand], k := s.enc.k + 3 }
          lastOutputPort := some q }) ∧
  (∀ (s : State) (b : Byte), s.enc.due ≠ .priming →
    exec (.p2outPrime b) s = .refused (.rowNotSelected "P2OUT.PRIME"))

/-- 45_p2_encoder.md R214 and R207: the head byte is popped and sent, a status byte becomes the port's last command, and
the twelfth slot byte of a group is followed by the trailer. Right after a switch marker the head byte comes at once
where no priming byte is due (R212). -/
def Obligations.FifoByteIsSentInOrder : Prop :=
  ∀ (s : State) (q : Port) (b : Byte) (rest : List Byte),
    Packing s → hasSendable q s = true → s.fifo[q].ok = true → s.lastOutputPort = some q → s.enc.k < 12 →
    (s.enc.due = .slot ∨ s.enc.due = .priming ∧ (b.getLsbD 7 = true ∨ s.fifo[q].lastCommand = 0x00)) →
    s.fifo[q].queued = b :: rest →
      ∃ t, exec (.p2outFifo b) s = .next t ∧ t = { s with fifo := t.fifo, enc := t.enc } ∧
        (∀ q' : Port, q' ≠ q → t.fifo[q'] = s.fifo[q']) ∧
        t.fifo[q].queued = rest ∧ t.fifo[q].sendableLength = s.fifo[q].sendableLength - 1 ∧
        t.fifo[q].lastCommand = (if b.getLsbD 7 then b else s.fifo[q].lastCommand) ∧
        t.fifo[q].commandSpanLength = s.fifo[q].commandSpanLength ∧ t.fifo[q].remaining = s.fifo[q].remaining ∧
        t.enc = (if s.enc.k = 11 then
            { s.enc with out := s.enc.out ++ [b, 0x01, 0x00], k := 0, groups := s.enc.groups + 1, due := .slot }
          else { s.enc with out := s.enc.out ++ [b], k := s.enc.k + 1, due := .slot })

/-- 45_p2_encoder.md R213, R215 and R207: both kinds of padding fill the group with `FF` and close it with its trailer,
and the trailer closes a group of twelve slot bytes. That a padding row, driven alone, pads the whole group, and that the
trailer row runs at `k = 12`, an instant that no operation leaves standing, is the model's reading (assumption 13). -/
def Obligations.PaddingClosesTheGroup : Prop :=
  ∀ s : State, Packing s →
    (s.enc.due = .slot → 10 ≤ s.enc.k → s.enc.k < 12 →
      (∃ q, hasSendable q s = true ∧ s.lastOutputPort ≠ some q) →
      exec .p2outPad s = .next { s with enc := { s.enc with
        out := s.enc.out ++ List.replicate (12 - s.enc.k) 0xFF ++ [0x01, 0x00], k := 0, groups := s.enc.groups + 1 } }) ∧
    (s.enc.due = .slot → 0 < s.enc.k → s.enc.k < 12 → (∀ q, hasSendable q s = false) →
      exec .p2outFinalPad s = .next { s with enc := { s.enc with
        out := s.enc.out ++ List.replicate (12 - s.enc.k) 0xFF ++ [0x01, 0x00], k := 0, groups := s.enc.groups + 1 } }) ∧
    (s.enc.k = 12 →
      exec .p2outTrailer s = .next { s with enc := { s.enc with
        out := s.enc.out ++ [0x01, 0x00], k := 0, groups := s.enc.groups + 1 } })

/-- 30_encoding.md R88, R91, 46_control.md R241 and 45_p2_encoder.md R205, R208, R210, R215 to R217: an encoder invocation
in P2 asks every output port once, ascending, each PULL followed by its own FIFO_OVERFLOW report where the answer does not
fit; then it emits nothing, and no output port has a sendable byte, or one packet of one to four whole groups, each closed
by `01 00`, with one sub-frame of 14 bytes for each, and it leaves sendable bytes only when the packet has all four groups.
`active` is set exactly when the packet is accepted. -/
def Obligations.P2PacketIsWholeGroups : Prop :=
  ∀ (s : State) (i : Instr), Encodes i s → s.variant = .p2 → FifoOk s →
    ∃ t sent, exec i s = .next t ∧ t.events = s.events ++ p2PullEvents s ++ sent ∧ t.enc = EncState.init ∧
      t = { s with fifo := t.fifo, enc := t.enc, lastOutputPort := t.lastOutputPort, active := t.active,
                   events := t.events, verdict := .accepted } ∧
      ((sent = [] ∧ t.active = false ∧ t.lastOutputPort = s.lastOutputPort ∧
          ∀ q : Port, q.val < s.nOut.val → t.fifo[q].sendableLength = 0) ∨
        ∃ packet groups, 1 ≤ groups ∧ groups ≤ 4 ∧ packet.length = 14 * groups ∧
          (∀ g, g < groups → packet[14 * g + 12]? = some 0x01 ∧ packet[14 * g + 13]? = some 0x00) ∧
          sent = submitEvents 2 packet ((List.range groups).map (fun g => (14 * g, 14))) s.env.accept ∧
          t.active = s.env.accept ∧
          (groups = 4 ∨ ∀ q : Port, q.val < s.nOut.val → t.fifo[q].sendableLength = 0))

/-- 45_p2_encoder.md R209 to R215 and R220, with silent producers. When the last output port alone has sendable bytes, at
most twelve of them, the packet is those bytes with no marker, filler to the end of the group, and the trailer. When
another port `r` has sendable bytes after those of the last output port, if it has any, and both fit, the packet is the
first port's bytes, filler where fewer than three slots of the group are left, the marker `F5 r`, the priming byte where
one is due, and the bytes of `r`, in groups of twelve. -/
def Obligations.PacketSwitchesPortsOnlyWhenNeeded : Prop :=
  (∀ (s : State) (q : Port),
    s.sessionOpen = true → s.variant = .p2 → s.active = false → s.env = ⟨Vector.replicate 9 [], true⟩ →
    s.lastOutputPort = some q → q.val < s.nOut.val → s.fifo[q].ok = true →
    0 < s.fifo[q].sendableLength → s.fifo[q].sendableLength ≤ 12 →
    (∀ q' : Port, q' ≠ q → s.fifo[q'].sendableLength = 0) →
      ∃ t, exec .txKick s = .next t ∧
        t.events = s.events ++ pullEvents s ++ [.txSubmit (s.fifo[q].sendable ++
          List.replicate (12 - s.fifo[q].sendableLength) 0xFF ++ [0x01, 0x00]) [(0, 14)] true] ∧
        t.fifo[q].sendableLength = 0 ∧ t.active = true ∧ t.lastOutputPort = some q) ∧
  (∀ (s : State) (i : Instr) (q r : Port),
    Encodes i s → s.variant = .p2 → s.env = ⟨Vector.replicate 9 [], true⟩ → q ≠ r →
    q.val < s.nOut.val → r.val < s.nOut.val → s.fifo[q].ok = true → s.fifo[r].ok = true →
    (s.lastOutputPort = some q ∨ s.lastOutputPort ≠ some r ∧ s.fifo[q].sendableLength = 0) →
    0 < s.fifo[r].sendableLength → (∀ q' : Port, q' ≠ q → q' ≠ r → s.fifo[q'].sendableLength = 0) →
    (switchedSlots s.fifo[q].sendable r s.fifo[r].lastCommand s.fifo[r].sendable).length ≤ 48 →
      ∃ t, exec i s = .next t ∧
        t.events = s.events ++ pullEvents s ++ [.txSubmit
          (packetOf (switchedSlots s.fifo[q].sendable r s.fifo[r].lastCommand s.fifo[r].sendable))
          (framesOf (switchedSlots s.fifo[q].sendable r s.fifo[r].lastCommand s.fifo[r].sendable)) true] ∧
        t.fifo[q].sendableLength = 0 ∧ t.fifo[r].sendableLength = 0 ∧ t.active = true ∧ t.lastOutputPort = some r)

/-- 44_p2_fifo.md R190, R198 and 45_p2_encoder.md R219: an encoder invocation neither loses nor reorders a queued byte.
What a port's FIFO held and the bytes it took from its producer are, in order, the bytes the invocation sent and the
bytes the FIFO holds afterwards; the bytes it sent stand in that order in the submitted packet, and where no packet is
submitted none was sent; a producer's byte is dropped only with a FIFO_OVERFLOW report. -/
def Obligations.NoQueuedByteIsLostOrReordered : Prop :=
  ∀ (s t : State) (i : Instr) (q : Port),
    Encodes i s → s.variant = .p2 → q.val < s.nOut.val → FifoOk s → exec i s = .next t →
      ∃ taken sent, s.fifo[q].queued ++ (s.env.pull[q]).take taken = sent ++ t.fifo[q].queued ∧
        (taken < (s.env.pull[q]).length → .report 3 (BitVec.ofNat 8 q.val) ∈ newEvents s t) ∧
        (∀ packet subframes accepted, .txSubmit packet subframes accepted ∈ newEvents s t → sent.Sublist packet) ∧
        ((∀ packet subframes accepted, .txSubmit packet subframes accepted ∉ newEvents s t) → sent = [])

/-- 45_p2_encoder.md R216: with silent producers and no sendable byte, nothing is submitted and nothing changes. -/
def Obligations.NothingSendableSubmitsNothing : Prop :=
  ∀ (s : State) (accepted : Bool),
    s.sessionOpen = true → s.variant = .p2 → s.active = false → s.env = ⟨Vector.replicate 9 [], accepted⟩ →
    (∀ q : Port, q.val < s.nOut.val → s.fifo[q].sendableLength = 0) →
      exec .txKick s = .next { s with events := s.events ++ pullEvents s, enc := EncState.init, verdict := .accepted }

/-! ### The Protocol 1 encoder -/

/-- 42_p1_encoder.md R152 and R156: byte 0 of a packet is `seq`, which then advances modulo 256, byte 1 is `00`, and the
two bytes `00` of the end marker follow the last group, and no third. That each of the two is a run of one row is the
model's reading (assumption 13). -/
def Obligations.HeaderAndEndMarkerFrameThePacket : Prop :=
  ∀ s : State, P1Encoding s →
    (s.enc.out = [] →
      exec (.p1outSeq s.seq) s = .next { s with enc := { s.enc with out := [s.seq] }, seq := s.seq + 1 }) ∧
    (∀ b : Byte, s.enc.out = [b] →
      exec .p1outRsvd s = .next { s with enc := { s.enc with out := [b, 0x00] } }) ∧
    (2 < s.enc.out.length → s.enc.pending = 0x00 →
      (3 ≤ s.enc.j ∨ ∀ m : MaskPort, s.enc.pulled[m.port].length ≤ s.enc.j) →
        (s.enc.ends < 2 →
          exec .p1outEnd s = .next { s with
            enc := { s.enc with out := s.enc.out ++ [0x00], ends := s.enc.ends + 1 } }) ∧
        (s.enc.ends = 0 →
          ∃ t, exec .p1outEnd s = .next t ∧
            exec .p1outEnd t = .next { s with enc := { s.enc with out := s.enc.out ++ [0x00, 0x00], ends := 2 } }) ∧
        (2 ≤ s.enc.ends → exec .p1outEnd s = .refused (.rowNotSelected "P1OUT.END")))

/-- 42_p1_encoder.md R153: group j opens with the mask of the ports that still have a byte at offset j, and the payload
bytes follow in ascending port order. -/
def Obligations.GroupCarriesOneBytePerMaskBit : Prop :=
  ∀ (s : State) (b : Byte), P1Encoding s →
    (2 ≤ s.enc.out.length → s.enc.pending = 0x00 → s.enc.j < 3 → b ≠ 0x00 →
      (∀ m : MaskPort, b.getLsbD m.val = decide (s.enc.j < s.enc.pulled[m.port].length)) →
        exec (.p1outMask b) s = .next { s with enc := { s.enc with out := s.enc.out ++ [b], pending := b } }) ∧
    (∀ m : MaskPort, s.enc.pending.getLsbD m.val = true →
      (∀ m' : MaskPort, m' < m → s.enc.pending.getLsbD m'.val = false) →
      b = s.enc.pulled[m.port].getD s.enc.j 0 →
        exec (.p1outPayload b) s = .next { s with enc := { s.enc with
          out := s.enc.out ++ [b]
          pending := clearBit s.enc.pending m.val
          j := if clearBit s.enc.pending m.val = 0x00 then s.enc.j + 1 else s.enc.j } })

/-- 42_p1_encoder.md R150 to R158 and 30_encoding.md R84: an encoder invocation in P1 pulls ports 0..min(N_OUT, 8)−1,
and, when some byte was pulled, submits one packet of 6 to 31 bytes, header, groups and end marker, whose payload for
each pulled port is exactly the bytes pulled from it, in order and unchanged; `seq` always advances, and `active` is
set exactly when the packet is accepted. -/
def Obligations.P1PacketCarriesEveryPulledByte : Prop :=
  ∀ (s : State) (i : Instr), Encodes i s → s.variant = .p1 →
    ∃ t sent, exec i s = .next t ∧ t.events = s.events ++ pullEvents s ++ sent ∧ t.seq = s.seq + 1 ∧
      t = { s with enc := EncState.init, seq := t.seq, active := t.active, events := t.events, verdict := .accepted } ∧
      (if ∀ q ∈ pulledPorts s, s.env.pull[q] = [] then sent = [] ∧ t.active = false
      else
        ∃ body, 2 ≤ body.length ∧ body.length ≤ 27 ∧
          sent = submitEvents 1 ([s.seq, 0x00] ++ body ++ [0x00, 0x00]) [(0, body.length + 4)] s.env.accept ∧
          t.active = s.env.accept ∧
          (∀ m : MaskPort, payloadFor m ([s.seq, 0x00] ++ body ++ [0x00, 0x00]) =
            if m.val < s.nOut.val then s.env.pull[m.port] else []))

/-! ### Transmit and receive control -/

/-- 46_control.md R232 and R233: a TX_KICK while a transmission is in flight, and a TX_DONE with nothing in flight, do
nothing; a TX_DONE with a transmission in flight clears `active` and runs the encoder at once, as a TX_KICK then does; a
failed completion is handled as a completed one. -/
def Obligations.CompletionRetriesAtOnce : Prop :=
  ∀ (s : State) (ok : Bool), s.sessionOpen = true →
    (s.active = true → exec .txKick s = .next { s with verdict := .accepted }) ∧
    (s.active = false → exec (.txDone ok) s = .next { s with verdict := .accepted }) ∧
    (s.active = true → answersLegal s = true → exec (.txDone ok) s = exec .txKick { s with active := false })

/-- 46_control.md R235: after an encoder invocation `active` is set exactly when the invocation emitted a TX_SUBMIT that
was accepted. -/
def Obligations.ActiveMeansAnAcceptedSubmission : Prop :=
  ∀ (s t : State) (i : Instr), Encodes i s → exec i s = .next t →
    (t.active = true ↔ ∃ packet subframes, .txSubmit packet subframes true ∈ newEvents s t)

/-! ### Invariants of every step -/

/-- 10_state.md R25: every step keeps the input record invariants. -/
def Obligations.StepKeepsTheInputInvariant : Prop :=
  ∀ s t : State, InputOk s → step s = .next t → InputOk t

/-- 10_state.md R27, R33 and R40: every step keeps the state that the session's variant does not use at its reset
value. -/
def Obligations.StepKeepsUnusedState : Prop :=
  ∀ s t : State, UnusedOk s → step s = .next t → UnusedOk t

/-- 46_control.md R236: between operations of a session exactly one receive is outstanding. -/
def Obligations.StepKeepsOneReceivePosted : Prop :=
  ∀ s t : State, ReceivePosted s → step s = .next t → ReceivePosted t

/-- Events are only ever added, in order. The list of the events emitted so far is the model's own field (assumption 11);
the spec says that the operations form one total order and that events are emitted in the order of the steps
(20_memory.md R71). -/
def Obligations.EventsAreOnlyAdded : Prop :=
  ∀ s t : State, step s = .next t → ∃ more, t.events = s.events ++ more
end

