-- ==== Sys2Proof/Laws/Operands.lean ====
section
/-! SUPPORT. What the operand forms say: byte classes as ranges, the length table, mask arithmetic, port index bytes and
the CFG word. -/

namespace Sys2Proof.Machine

/-! ### Byte classes -/

theorem isStatus_iff (b : Byte) : isStatus b = true ↔ 0x80 ≤ b.toNat := by
  revert b; decide

theorem isData_iff (b : Byte) : isData b = true ↔ b.toNat < 0x80 := by
  revert b; decide

@[simp] theorem isData_eq_not_isStatus (b : Byte) : isData b = !isStatus b := rfl

/-- A row whose mask keeps the high nibble matches the sixteen bytes of that nibble. -/
theorem matchesRow_chan (b : Byte) (n : Fin 16) :
    matchesRow b (BitVec.ofNat 8 (16 * n.val)) 0xF0 = true ↔ b.toNat / 16 = n.val := by
  revert b n; decide

theorem matchesRow_data (b : Byte) : matchesRow b 0x00 0x80 = true ↔ b.toNat < 0x80 := by
  revert b; decide

/-! ### The length table -/

theorem lengthOf_data (t : LenTable) (b : Byte) (h : b.toNat < 0x80) : lengthOf t b = .notACommand := by
  simp [lengthOf, h]

theorem lengthOf_chan (t : LenTable) (b : Byte) (h : 0x80 ≤ b.toNat) (h' : b.toNat < 0xF0) :
    lengthOf t b = .fixed (chanLen t b) := by
  simp [lengthOf, h', show ¬ b.toNat < 0x80 by omega]

@[simp] theorem lengthOf_sysex (t : LenTable) : lengthOf t 0xF0 = .variableLen := by
  simp [lengthOf]

@[simp] theorem lengthOf_ff (t : LenTable) : lengthOf t 0xFF = .notACommand := by
  simp [lengthOf]

@[simp] theorem lengthOf_zero (t : LenTable) : lengthOf t 0x00 = .notACommand := by
  simp [lengthOf]

theorem lengthOf_sys (t : LenTable) (b : Byte) (h : 0xF0 < b.toNat) (h' : b.toNat < 0xFF) :
    lengthOf t b = .fixed (sysLen t b) := by
  have h0 : b ≠ 0xF0#8 := by rintro rfl; revert h; decide
  have h1 : b ≠ 0xFF#8 := by rintro rfl; revert h'; decide
  simp [lengthOf, show ¬ b.toNat < 0x80 by omega, show ¬ b.toNat < 0xF0 by omega, h0, h1]

/-- A status byte other than `F0` and `FF` has a fixed length. -/
theorem lengthOf_status (t : LenTable) (b : Byte) (h : isStatus b = true) (h0 : b ≠ 0xF0) (h1 : b ≠ 0xFF) :
    ∃ n, lengthOf t b = .fixed n := by
  rw [isStatus_iff] at h
  by_cases hc : b.toNat < 0xF0
  · exact ⟨_, lengthOf_chan t b h hc⟩
  · refine ⟨_, lengthOf_sys t b ?_ ?_⟩
    · have : b.toNat ≠ 0xF0 := fun e => h0 (BitVec.eq_of_toNat_eq e)
      omega
    · have : b.toNat ≠ 0xFF := fun e => h1 (BitVec.eq_of_toNat_eq e)
      have := b.isLt
      omega

/-- Under a legal table every fixed length is 1, 2 or 3 (40_length_table.md R127). -/
theorem lengthOf_range (t : LenTable) (h : t.wf = true) (b : Byte) (n : Nat) (hn : lengthOf t b = .fixed n) :
    1 ≤ n ∧ n ≤ 3 := by
  simp only [LenTable.wf, Bool.and_eq_true, List.all_eq_true, Bool.or_eq_true, beq_iff_eq] at h
  obtain ⟨hc, hs⟩ := h
  unfold lengthOf at hn
  split at hn
  · cases hn
  · rename_i h0
    split at hn
    · rename_i h1
      injection hn with hn
      have hi : b.toNat / 16 - 8 < 7 := by omega
      have := hc t.chan[b.toNat / 16 - 8] (by simp)
      simp only [chanLen, Vector.getElem?_eq_getElem hi, Option.getD_some] at hn
      omega
    · split at hn
      · cases hn
      · split at hn
        · cases hn
        · rename_i h1 h2 h3
          injection hn with hn
          have h4 : b.toNat ≠ 0xFF := fun e => h3 (BitVec.eq_of_toNat_eq e)
          have h5 := b.isLt
          have hi : b.toNat - 0xF1 < 14 := by omega
          have := hs t.sys[b.toNat - 0xF1] (by simp)
          simp only [sysLen, Vector.getElem?_eq_getElem hi, Option.getD_some] at hn
          omega

/-! ### Mask bytes -/

/-- What `lowbit` finds is the lowest set bit at or above the cursor. -/
theorem lowbit_some (m : Byte) (c : Nat) (i : MaskPort) :
    lowbit m c = some i ↔
      c ≤ i.val ∧ m.getLsbD i.val = true ∧ ∀ k : MaskPort, c ≤ k.val → k < i → m.getLsbD k.val = false := by
  unfold lowbit
  rw [List.find?_eq_some_iff_getElem]
  constructor
  · rintro ⟨hp, n, hn, rfl, hlt⟩
    simp only [Bool.and_eq_true, decide_eq_true_eq] at hp
    refine ⟨hp.1, hp.2, fun k hk hkn => ?_⟩
    have hv : ∀ j (hj : j < maskPorts.length), (maskPorts[j]).val = j := by decide
    have hj : k.val < n := by
      have := hv n hn
      have h2 : k.val < (maskPorts[n]).val := hkn
      omega
    have := hlt k.val hj
    have hk8 : k.val < maskPorts.length := k.isLt
    have he : maskPorts[k.val] = k := Fin.ext (hv _ hk8)
    simpa [he, hk] using this
  · rintro ⟨h1, h2, h3⟩
    have hv : ∀ j (hj : j < maskPorts.length), (maskPorts[j]).val = j := by decide
    have hi : i.val < maskPorts.length := i.isLt
    have he : maskPorts[i.val] = i := Fin.ext (hv _ hi)
    refine ⟨by simp [h1, h2], i.val, hi, he, fun j hj => ?_⟩
    have hj8 : j < maskPorts.length := lt_trans hj hi
    by_cases hc : c ≤ j
    · have := h3 maskPorts[j] (by rw [hv]; exact hc) (by rw [Fin.lt_def, hv]; exact hj)
      rw [this, Bool.and_false, Bool.not_false]
    · simp [hv j hj8, hc]

/-- `lowbit` finds nothing exactly when no bit is set at or above the cursor. -/
theorem lowbit_none (m : Byte) (c : Nat) :
    lowbit m c = none ↔ ∀ k : MaskPort, c ≤ k.val → m.getLsbD k.val = false := by
  have hm : ∀ k : MaskPort, k ∈ maskPorts := by decide
  simp only [lowbit, List.find?_eq_none, Bool.and_eq_true, decide_eq_true_eq, not_and, Bool.not_eq_true]
  exact ⟨fun h k hk => h k (hm k) hk, fun h k _ hk => h k hk⟩

/-- Clearing a bit clears that bit and no other. -/
theorem clearBit_getLsbD (m : Byte) (i k : MaskPort) :
    (clearBit m i.val).getLsbD k.val = (m.getLsbD k.val && decide (k ≠ i)) := by
  revert m i k; decide

theorem eq_zero_iff_getLsbD (m : Byte) : m = 0x00 ↔ ∀ k : MaskPort, m.getLsbD k.val = false := by
  revert m; decide

theorem foldl_mask_getLsbD (f : MaskPort → Bool) (k : MaskPort) (l : List MaskPort) (m : Byte) :
    (l.foldl (fun m i => if f i then m ||| (1#8 <<< i.val) else m) m).getLsbD k.val =
      (m.getLsbD k.val || (decide (k ∈ l) && f k)) := by
  have hbit : ∀ i : MaskPort, (1#8 <<< i.val).getLsbD k.val = decide (k = i) := by revert k; decide
  induction l generalizing m with
  | nil => simp
  | cons i l ih =>
    rw [List.foldl_cons, ih]
    by_cases hf : f i = true
    · rw [if_pos hf, BitVec.getLsbD_or, hbit i]
      by_cases hk : k = i
      · subst hk; simp [hf]
      · simp [hk]
    · rw [if_neg hf]
      by_cases hk : k = i
      · subst hk; simp [Bool.not_eq_true _ ▸ hf]
      · simp [hk]

/-- Bit `k` of the mask of a port set says whether port `k` is in it. -/
theorem maskOf_getLsbD (f : MaskPort → Bool) (k : MaskPort) : (maskOf f).getLsbD k.val = f k := by
  have hk : k ∈ maskPorts := by revert k; decide
  rw [maskOf, foldl_mask_getLsbD]
  simp [hk]

/-! ### Port index bytes and the CFG word -/

/-- The nine port indices are all there are. -/
theorem allPorts_eq : allPorts = List.finRange maxPortSlots := by decide

@[simp] theorem mem_allPorts (p : Port) : p ∈ allPorts := by
  rw [allPorts_eq]; exact List.mem_finRange p

theorem maskPorts_eq : maskPorts = List.finRange p1MaskPorts := by decide

/-- The bound on a port index, as a number. -/
theorem port_lt (p : Port) : p.val < 9 := p.isLt

theorem maskPort_lt (i : MaskPort) : i.val < 8 := i.isLt

theorem validPort_some (n : PortCount) (b : Byte) (p : Port) :
    validPort n b = some p ↔ b.toNat < n.val ∧ b.toNat = p.val := by
  unfold validPort
  split
  · rename_i h; simp [Fin.ext_iff, h]
  · rename_i h; simp [h]

theorem validPort_none (n : PortCount) (b : Byte) : validPort n b = none ↔ n.val ≤ b.toNat := by
  unfold validPort
  split
  · rename_i h; simp; omega
  · rename_i h; simp; omega

@[simp] theorem portByte_toNat (p : Port) : (portByte p).toNat = p.val := by
  revert p; decide

theorem portByte_inj (p q : Port) : portByte p = portByte q ↔ p = q := by
  revert p q; decide

@[simp] theorem portByte_isStatus (p : Port) : isStatus (portByte p) = false := by
  revert p; decide

theorem portCount_some (f : BitVec 4) (n : PortCount) :
    portCount? f = some n ↔ 5 ≤ f.toNat ∧ f.toNat ≤ 9 ∧ f.toNat = n.val := by
  revert f n; decide

theorem portCount_none (f : BitVec 4) : portCount? f = none ↔ ¬ (5 ≤ f.toNat ∧ f.toNat ≤ 9) := by
  revert f; decide

end Sys2Proof.Machine
end

