-- ==== Sys2Proof/Laws/State.lean ====
section
/-! SUPPORT. The fields of a state after each of its updates: one lemma per field per update, each true by unfolding, so
that no later proof unfolds a record update. -/

namespace Sys2Proof.Machine

variable (s : State)

/-! ### setActive -/

@[simp] theorem setActive_sessionOpen (v : Bool) : (setActive v s).sessionOpen = s.sessionOpen := rfl
@[simp] theorem setActive_variant (v : Bool) : (setActive v s).variant = s.variant := rfl
@[simp] theorem setActive_nIn (v : Bool) : (setActive v s).nIn = s.nIn := rfl
@[simp] theorem setActive_nOut (v : Bool) : (setActive v s).nOut = s.nOut := rfl
@[simp] theorem setActive_lenTable (v : Bool) : (setActive v s).lenTable = s.lenTable := rfl
@[simp] theorem setActive_cursor (v : Bool) : (setActive v s).cursor = s.cursor := rfl
@[simp] theorem setActive_ia (v : Bool) : (setActive v s).ia = s.ia := rfl
@[simp] theorem setActive_scan (v : Bool) : (setActive v s).scan = s.scan := rfl
@[simp] theorem setActive_p2State (v : Bool) : (setActive v s).p2State = s.p2State := rfl
@[simp] theorem setActive_selectedPort (v : Bool) : (setActive v s).selectedPort = s.selectedPort := rfl
@[simp] theorem setActive_fifo (v : Bool) : (setActive v s).fifo = s.fifo := rfl
@[simp] theorem setActive_enc (v : Bool) : (setActive v s).enc = s.enc := rfl
@[simp] theorem setActive_seq (v : Bool) : (setActive v s).seq = s.seq := rfl
@[simp] theorem setActive_lastOutputPort (v : Bool) : (setActive v s).lastOutputPort = s.lastOutputPort := rfl
@[simp] theorem setActive_active (v : Bool) : (setActive v s).active = v := rfl
@[simp] theorem setActive_rxPosted (v : Bool) : (setActive v s).rxPosted = s.rxPosted := rfl
@[simp] theorem setActive_events (v : Bool) : (setActive v s).events = s.events := rfl
@[simp] theorem setActive_verdict (v : Bool) : (setActive v s).verdict = s.verdict := rfl
@[simp] theorem setActive_lenAnswer (v : Bool) : (setActive v s).lenAnswer = s.lenAnswer := rfl
@[simp] theorem setActive_env (v : Bool) : (setActive v s).env = s.env := rfl
@[simp] theorem setActive_inbox (v : Bool) : (setActive v s).inbox = s.inbox := rfl
@[simp] theorem setActive_freeDraws (v : Bool) : (setActive v s).freeDraws = s.freeDraws := rfl

/-! ### setRxPosted -/

@[simp] theorem setRxPosted_sessionOpen (v : Bool) : (setRxPosted v s).sessionOpen = s.sessionOpen := rfl
@[simp] theorem setRxPosted_variant (v : Bool) : (setRxPosted v s).variant = s.variant := rfl
@[simp] theorem setRxPosted_nIn (v : Bool) : (setRxPosted v s).nIn = s.nIn := rfl
@[simp] theorem setRxPosted_nOut (v : Bool) : (setRxPosted v s).nOut = s.nOut := rfl
@[simp] theorem setRxPosted_lenTable (v : Bool) : (setRxPosted v s).lenTable = s.lenTable := rfl
@[simp] theorem setRxPosted_cursor (v : Bool) : (setRxPosted v s).cursor = s.cursor := rfl
@[simp] theorem setRxPosted_ia (v : Bool) : (setRxPosted v s).ia = s.ia := rfl
@[simp] theorem setRxPosted_scan (v : Bool) : (setRxPosted v s).scan = s.scan := rfl
@[simp] theorem setRxPosted_p2State (v : Bool) : (setRxPosted v s).p2State = s.p2State := rfl
@[simp] theorem setRxPosted_selectedPort (v : Bool) : (setRxPosted v s).selectedPort = s.selectedPort := rfl
@[simp] theorem setRxPosted_fifo (v : Bool) : (setRxPosted v s).fifo = s.fifo := rfl
@[simp] theorem setRxPosted_enc (v : Bool) : (setRxPosted v s).enc = s.enc := rfl
@[simp] theorem setRxPosted_seq (v : Bool) : (setRxPosted v s).seq = s.seq := rfl
@[simp] theorem setRxPosted_lastOutputPort (v : Bool) : (setRxPosted v s).lastOutputPort = s.lastOutputPort := rfl
@[simp] theorem setRxPosted_active (v : Bool) : (setRxPosted v s).active = s.active := rfl
@[simp] theorem setRxPosted_rxPosted (v : Bool) : (setRxPosted v s).rxPosted = v := rfl
@[simp] theorem setRxPosted_events (v : Bool) : (setRxPosted v s).events = s.events := rfl
@[simp] theorem setRxPosted_verdict (v : Bool) : (setRxPosted v s).verdict = s.verdict := rfl
@[simp] theorem setRxPosted_lenAnswer (v : Bool) : (setRxPosted v s).lenAnswer = s.lenAnswer := rfl
@[simp] theorem setRxPosted_env (v : Bool) : (setRxPosted v s).env = s.env := rfl
@[simp] theorem setRxPosted_inbox (v : Bool) : (setRxPosted v s).inbox = s.inbox := rfl
@[simp] theorem setRxPosted_freeDraws (v : Bool) : (setRxPosted v s).freeDraws = s.freeDraws := rfl

/-! ### setScan -/

@[simp] theorem setScan_sessionOpen (v : ScanState) : (setScan v s).sessionOpen = s.sessionOpen := rfl
@[simp] theorem setScan_variant (v : ScanState) : (setScan v s).variant = s.variant := rfl
@[simp] theorem setScan_nIn (v : ScanState) : (setScan v s).nIn = s.nIn := rfl
@[simp] theorem setScan_nOut (v : ScanState) : (setScan v s).nOut = s.nOut := rfl
@[simp] theorem setScan_lenTable (v : ScanState) : (setScan v s).lenTable = s.lenTable := rfl
@[simp] theorem setScan_cursor (v : ScanState) : (setScan v s).cursor = s.cursor := rfl
@[simp] theorem setScan_ia (v : ScanState) : (setScan v s).ia = s.ia := rfl
@[simp] theorem setScan_scan (v : ScanState) : (setScan v s).scan = v := rfl
@[simp] theorem setScan_p2State (v : ScanState) : (setScan v s).p2State = s.p2State := rfl
@[simp] theorem setScan_selectedPort (v : ScanState) : (setScan v s).selectedPort = s.selectedPort := rfl
@[simp] theorem setScan_fifo (v : ScanState) : (setScan v s).fifo = s.fifo := rfl
@[simp] theorem setScan_enc (v : ScanState) : (setScan v s).enc = s.enc := rfl
@[simp] theorem setScan_seq (v : ScanState) : (setScan v s).seq = s.seq := rfl
@[simp] theorem setScan_lastOutputPort (v : ScanState) : (setScan v s).lastOutputPort = s.lastOutputPort := rfl
@[simp] theorem setScan_active (v : ScanState) : (setScan v s).active = s.active := rfl
@[simp] theorem setScan_rxPosted (v : ScanState) : (setScan v s).rxPosted = s.rxPosted := rfl
@[simp] theorem setScan_events (v : ScanState) : (setScan v s).events = s.events := rfl
@[simp] theorem setScan_verdict (v : ScanState) : (setScan v s).verdict = s.verdict := rfl
@[simp] theorem setScan_lenAnswer (v : ScanState) : (setScan v s).lenAnswer = s.lenAnswer := rfl
@[simp] theorem setScan_env (v : ScanState) : (setScan v s).env = s.env := rfl
@[simp] theorem setScan_inbox (v : ScanState) : (setScan v s).inbox = s.inbox := rfl
@[simp] theorem setScan_freeDraws (v : ScanState) : (setScan v s).freeDraws = s.freeDraws := rfl

/-! ### setInData -/

@[simp] theorem setInData_sessionOpen (v : Bool) : (setInData v s).sessionOpen = s.sessionOpen := rfl
@[simp] theorem setInData_variant (v : Bool) : (setInData v s).variant = s.variant := rfl
@[simp] theorem setInData_nIn (v : Bool) : (setInData v s).nIn = s.nIn := rfl
@[simp] theorem setInData_nOut (v : Bool) : (setInData v s).nOut = s.nOut := rfl
@[simp] theorem setInData_lenTable (v : Bool) : (setInData v s).lenTable = s.lenTable := rfl
@[simp] theorem setInData_cursor (v : Bool) : (setInData v s).cursor = s.cursor := rfl
@[simp] theorem setInData_ia (v : Bool) : (setInData v s).ia = s.ia := rfl
@[simp] theorem setInData_scan (v : Bool) : (setInData v s).scan = { s.scan with inData := v } := rfl
@[simp] theorem setInData_p2State (v : Bool) : (setInData v s).p2State = s.p2State := rfl
@[simp] theorem setInData_selectedPort (v : Bool) : (setInData v s).selectedPort = s.selectedPort := rfl
@[simp] theorem setInData_fifo (v : Bool) : (setInData v s).fifo = s.fifo := rfl
@[simp] theorem setInData_enc (v : Bool) : (setInData v s).enc = s.enc := rfl
@[simp] theorem setInData_seq (v : Bool) : (setInData v s).seq = s.seq := rfl
@[simp] theorem setInData_lastOutputPort (v : Bool) : (setInData v s).lastOutputPort = s.lastOutputPort := rfl
@[simp] theorem setInData_active (v : Bool) : (setInData v s).active = s.active := rfl
@[simp] theorem setInData_rxPosted (v : Bool) : (setInData v s).rxPosted = s.rxPosted := rfl
@[simp] theorem setInData_events (v : Bool) : (setInData v s).events = s.events := rfl
@[simp] theorem setInData_verdict (v : Bool) : (setInData v s).verdict = s.verdict := rfl
@[simp] theorem setInData_lenAnswer (v : Bool) : (setInData v s).lenAnswer = s.lenAnswer := rfl
@[simp] theorem setInData_env (v : Bool) : (setInData v s).env = s.env := rfl
@[simp] theorem setInData_inbox (v : Bool) : (setInData v s).inbox = s.inbox := rfl
@[simp] theorem setInData_freeDraws (v : Bool) : (setInData v s).freeDraws = s.freeDraws := rfl

/-! ### setDiscard -/

@[simp] theorem setDiscard_sessionOpen (i : MaskPort) : (setDiscard i s).sessionOpen = s.sessionOpen := rfl
@[simp] theorem setDiscard_variant (i : MaskPort) : (setDiscard i s).variant = s.variant := rfl
@[simp] theorem setDiscard_nIn (i : MaskPort) : (setDiscard i s).nIn = s.nIn := rfl
@[simp] theorem setDiscard_nOut (i : MaskPort) : (setDiscard i s).nOut = s.nOut := rfl
@[simp] theorem setDiscard_lenTable (i : MaskPort) : (setDiscard i s).lenTable = s.lenTable := rfl
@[simp] theorem setDiscard_cursor (i : MaskPort) : (setDiscard i s).cursor = s.cursor := rfl
@[simp] theorem setDiscard_ia (i : MaskPort) : (setDiscard i s).ia = s.ia := rfl
@[simp] theorem setDiscard_scan (i : MaskPort) : (setDiscard i s).scan = { s.scan with discard := s.scan.discard.set i true } := rfl
@[simp] theorem setDiscard_p2State (i : MaskPort) : (setDiscard i s).p2State = s.p2State := rfl
@[simp] theorem setDiscard_selectedPort (i : MaskPort) : (setDiscard i s).selectedPort = s.selectedPort := rfl
@[simp] theorem setDiscard_fifo (i : MaskPort) : (setDiscard i s).fifo = s.fifo := rfl
@[simp] theorem setDiscard_enc (i : MaskPort) : (setDiscard i s).enc = s.enc := rfl
@[simp] theorem setDiscard_seq (i : MaskPort) : (setDiscard i s).seq = s.seq := rfl
@[simp] theorem setDiscard_lastOutputPort (i : MaskPort) : (setDiscard i s).lastOutputPort = s.lastOutputPort := rfl
@[simp] theorem setDiscard_active (i : MaskPort) : (setDiscard i s).active = s.active := rfl
@[simp] theorem setDiscard_rxPosted (i : MaskPort) : (setDiscard i s).rxPosted = s.rxPosted := rfl
@[simp] theorem setDiscard_events (i : MaskPort) : (setDiscard i s).events = s.events := rfl
@[simp] theorem setDiscard_verdict (i : MaskPort) : (setDiscard i s).verdict = s.verdict := rfl
@[simp] theorem setDiscard_lenAnswer (i : MaskPort) : (setDiscard i s).lenAnswer = s.lenAnswer := rfl
@[simp] theorem setDiscard_env (i : MaskPort) : (setDiscard i s).env = s.env := rfl
@[simp] theorem setDiscard_inbox (i : MaskPort) : (setDiscard i s).inbox = s.inbox := rfl
@[simp] theorem setDiscard_freeDraws (i : MaskPort) : (setDiscard i s).freeDraws = s.freeDraws := rfl

/-! ### emit -/

@[simp] theorem emit_sessionOpen (e : Event) : (emit e s).sessionOpen = s.sessionOpen := rfl
@[simp] theorem emit_variant (e : Event) : (emit e s).variant = s.variant := rfl
@[simp] theorem emit_nIn (e : Event) : (emit e s).nIn = s.nIn := rfl
@[simp] theorem emit_nOut (e : Event) : (emit e s).nOut = s.nOut := rfl
@[simp] theorem emit_lenTable (e : Event) : (emit e s).lenTable = s.lenTable := rfl
@[simp] theorem emit_cursor (e : Event) : (emit e s).cursor = s.cursor := rfl
@[simp] theorem emit_ia (e : Event) : (emit e s).ia = s.ia := rfl
@[simp] theorem emit_scan (e : Event) : (emit e s).scan = s.scan := rfl
@[simp] theorem emit_p2State (e : Event) : (emit e s).p2State = s.p2State := rfl
@[simp] theorem emit_selectedPort (e : Event) : (emit e s).selectedPort = s.selectedPort := rfl
@[simp] theorem emit_fifo (e : Event) : (emit e s).fifo = s.fifo := rfl
@[simp] theorem emit_enc (e : Event) : (emit e s).enc = s.enc := rfl
@[simp] theorem emit_seq (e : Event) : (emit e s).seq = s.seq := rfl
@[simp] theorem emit_lastOutputPort (e : Event) : (emit e s).lastOutputPort = s.lastOutputPort := rfl
@[simp] theorem emit_active (e : Event) : (emit e s).active = s.active := rfl
@[simp] theorem emit_rxPosted (e : Event) : (emit e s).rxPosted = s.rxPosted := rfl
@[simp] theorem emit_events (e : Event) : (emit e s).events = s.events ++ [e] := rfl
@[simp] theorem emit_verdict (e : Event) : (emit e s).verdict = s.verdict := rfl
@[simp] theorem emit_lenAnswer (e : Event) : (emit e s).lenAnswer = s.lenAnswer := rfl
@[simp] theorem emit_env (e : Event) : (emit e s).env = s.env := rfl
@[simp] theorem emit_inbox (e : Event) : (emit e s).inbox = s.inbox := rfl
@[simp] theorem emit_freeDraws (e : Event) : (emit e s).freeDraws = s.freeDraws := rfl

/-! ### raiseCondition -/

@[simp] theorem raiseCondition_sessionOpen (c : Condition) (arg : Byte) : (raiseCondition c arg s).sessionOpen = s.sessionOpen := rfl
@[simp] theorem raiseCondition_variant (c : Condition) (arg : Byte) : (raiseCondition c arg s).variant = s.variant := rfl
@[simp] theorem raiseCondition_nIn (c : Condition) (arg : Byte) : (raiseCondition c arg s).nIn = s.nIn := rfl
@[simp] theorem raiseCondition_nOut (c : Condition) (arg : Byte) : (raiseCondition c arg s).nOut = s.nOut := rfl
@[simp] theorem raiseCondition_lenTable (c : Condition) (arg : Byte) : (raiseCondition c arg s).lenTable = s.lenTable := rfl
@[simp] theorem raiseCondition_cursor (c : Condition) (arg : Byte) : (raiseCondition c arg s).cursor = s.cursor := rfl
@[simp] theorem raiseCondition_ia (c : Condition) (arg : Byte) : (raiseCondition c arg s).ia = s.ia := rfl
@[simp] theorem raiseCondition_scan (c : Condition) (arg : Byte) : (raiseCondition c arg s).scan = s.scan := rfl
@[simp] theorem raiseCondition_p2State (c : Condition) (arg : Byte) : (raiseCondition c arg s).p2State = s.p2State := rfl
@[simp] theorem raiseCondition_selectedPort (c : Condition) (arg : Byte) : (raiseCondition c arg s).selectedPort = s.selectedPort := rfl
@[simp] theorem raiseCondition_fifo (c : Condition) (arg : Byte) : (raiseCondition c arg s).fifo = s.fifo := rfl
@[simp] theorem raiseCondition_enc (c : Condition) (arg : Byte) : (raiseCondition c arg s).enc = s.enc := rfl
@[simp] theorem raiseCondition_seq (c : Condition) (arg : Byte) : (raiseCondition c arg s).seq = s.seq := rfl
@[simp] theorem raiseCondition_lastOutputPort (c : Condition) (arg : Byte) : (raiseCondition c arg s).lastOutputPort = s.lastOutputPort := rfl
@[simp] theorem raiseCondition_active (c : Condition) (arg : Byte) : (raiseCondition c arg s).active = s.active := rfl
@[simp] theorem raiseCondition_rxPosted (c : Condition) (arg : Byte) : (raiseCondition c arg s).rxPosted = s.rxPosted := rfl
@[simp] theorem raiseCondition_events (c : Condition) (arg : Byte) : (raiseCondition c arg s).events = s.events ++ [.report c.code arg] := rfl
@[simp] theorem raiseCondition_verdict (c : Condition) (arg : Byte) : (raiseCondition c arg s).verdict = s.verdict := rfl
@[simp] theorem raiseCondition_lenAnswer (c : Condition) (arg : Byte) : (raiseCondition c arg s).lenAnswer = s.lenAnswer := rfl
@[simp] theorem raiseCondition_env (c : Condition) (arg : Byte) : (raiseCondition c arg s).env = s.env := rfl
@[simp] theorem raiseCondition_inbox (c : Condition) (arg : Byte) : (raiseCondition c arg s).inbox = s.inbox := rfl
@[simp] theorem raiseCondition_freeDraws (c : Condition) (arg : Byte) : (raiseCondition c arg s).freeDraws = s.freeDraws := rfl

/-! ### accept -/

@[simp] theorem accept_sessionOpen : (accept s).sessionOpen = s.sessionOpen := rfl
@[simp] theorem accept_variant : (accept s).variant = s.variant := rfl
@[simp] theorem accept_nIn : (accept s).nIn = s.nIn := rfl
@[simp] theorem accept_nOut : (accept s).nOut = s.nOut := rfl
@[simp] theorem accept_lenTable : (accept s).lenTable = s.lenTable := rfl
@[simp] theorem accept_cursor : (accept s).cursor = s.cursor := rfl
@[simp] theorem accept_ia : (accept s).ia = s.ia := rfl
@[simp] theorem accept_scan : (accept s).scan = s.scan := rfl
@[simp] theorem accept_p2State : (accept s).p2State = s.p2State := rfl
@[simp] theorem accept_selectedPort : (accept s).selectedPort = s.selectedPort := rfl
@[simp] theorem accept_fifo : (accept s).fifo = s.fifo := rfl
@[simp] theorem accept_enc : (accept s).enc = s.enc := rfl
@[simp] theorem accept_seq : (accept s).seq = s.seq := rfl
@[simp] theorem accept_lastOutputPort : (accept s).lastOutputPort = s.lastOutputPort := rfl
@[simp] theorem accept_active : (accept s).active = s.active := rfl
@[simp] theorem accept_rxPosted : (accept s).rxPosted = s.rxPosted := rfl
@[simp] theorem accept_events : (accept s).events = s.events := rfl
@[simp] theorem accept_verdict : (accept s).verdict = .accepted := rfl
@[simp] theorem accept_lenAnswer : (accept s).lenAnswer = s.lenAnswer := rfl
@[simp] theorem accept_env : (accept s).env = s.env := rfl
@[simp] theorem accept_inbox : (accept s).inbox = s.inbox := rfl
@[simp] theorem accept_freeDraws : (accept s).freeDraws = s.freeDraws := rfl

/-! ### refuse -/

@[simp] theorem refuse_sessionOpen (why : RefuseReason) : (refuse why s).sessionOpen = s.sessionOpen := rfl
@[simp] theorem refuse_variant (why : RefuseReason) : (refuse why s).variant = s.variant := rfl
@[simp] theorem refuse_nIn (why : RefuseReason) : (refuse why s).nIn = s.nIn := rfl
@[simp] theorem refuse_nOut (why : RefuseReason) : (refuse why s).nOut = s.nOut := rfl
@[simp] theorem refuse_lenTable (why : RefuseReason) : (refuse why s).lenTable = s.lenTable := rfl
@[simp] theorem refuse_cursor (why : RefuseReason) : (refuse why s).cursor = s.cursor := rfl
@[simp] theorem refuse_ia (why : RefuseReason) : (refuse why s).ia = s.ia := rfl
@[simp] theorem refuse_scan (why : RefuseReason) : (refuse why s).scan = s.scan := rfl
@[simp] theorem refuse_p2State (why : RefuseReason) : (refuse why s).p2State = s.p2State := rfl
@[simp] theorem refuse_selectedPort (why : RefuseReason) : (refuse why s).selectedPort = s.selectedPort := rfl
@[simp] theorem refuse_fifo (why : RefuseReason) : (refuse why s).fifo = s.fifo := rfl
@[simp] theorem refuse_enc (why : RefuseReason) : (refuse why s).enc = s.enc := rfl
@[simp] theorem refuse_seq (why : RefuseReason) : (refuse why s).seq = s.seq := rfl
@[simp] theorem refuse_lastOutputPort (why : RefuseReason) : (refuse why s).lastOutputPort = s.lastOutputPort := rfl
@[simp] theorem refuse_active (why : RefuseReason) : (refuse why s).active = s.active := rfl
@[simp] theorem refuse_rxPosted (why : RefuseReason) : (refuse why s).rxPosted = s.rxPosted := rfl
@[simp] theorem refuse_events (why : RefuseReason) : (refuse why s).events = s.events := rfl
@[simp] theorem refuse_verdict (why : RefuseReason) : (refuse why s).verdict = .refused why := rfl
@[simp] theorem refuse_lenAnswer (why : RefuseReason) : (refuse why s).lenAnswer = s.lenAnswer := rfl
@[simp] theorem refuse_env (why : RefuseReason) : (refuse why s).env = s.env := rfl
@[simp] theorem refuse_inbox (why : RefuseReason) : (refuse why s).inbox = s.inbox := rfl
@[simp] theorem refuse_freeDraws (why : RefuseReason) : (refuse why s).freeDraws = s.freeDraws := rfl

/-! ### setP2 -/

@[simp] theorem setP2_sessionOpen (st : P2State) (p : Option Port) : (setP2 st p s).sessionOpen = s.sessionOpen := rfl
@[simp] theorem setP2_variant (st : P2State) (p : Option Port) : (setP2 st p s).variant = s.variant := rfl
@[simp] theorem setP2_nIn (st : P2State) (p : Option Port) : (setP2 st p s).nIn = s.nIn := rfl
@[simp] theorem setP2_nOut (st : P2State) (p : Option Port) : (setP2 st p s).nOut = s.nOut := rfl
@[simp] theorem setP2_lenTable (st : P2State) (p : Option Port) : (setP2 st p s).lenTable = s.lenTable := rfl
@[simp] theorem setP2_cursor (st : P2State) (p : Option Port) : (setP2 st p s).cursor = s.cursor := rfl
@[simp] theorem setP2_ia (st : P2State) (p : Option Port) : (setP2 st p s).ia = s.ia := rfl
@[simp] theorem setP2_scan (st : P2State) (p : Option Port) : (setP2 st p s).scan = s.scan := rfl
@[simp] theorem setP2_p2State (st : P2State) (p : Option Port) : (setP2 st p s).p2State = st := rfl
@[simp] theorem setP2_selectedPort (st : P2State) (p : Option Port) : (setP2 st p s).selectedPort = p := rfl
@[simp] theorem setP2_fifo (st : P2State) (p : Option Port) : (setP2 st p s).fifo = s.fifo := rfl
@[simp] theorem setP2_enc (st : P2State) (p : Option Port) : (setP2 st p s).enc = s.enc := rfl
@[simp] theorem setP2_seq (st : P2State) (p : Option Port) : (setP2 st p s).seq = s.seq := rfl
@[simp] theorem setP2_lastOutputPort (st : P2State) (p : Option Port) : (setP2 st p s).lastOutputPort = s.lastOutputPort := rfl
@[simp] theorem setP2_active (st : P2State) (p : Option Port) : (setP2 st p s).active = s.active := rfl
@[simp] theorem setP2_rxPosted (st : P2State) (p : Option Port) : (setP2 st p s).rxPosted = s.rxPosted := rfl
@[simp] theorem setP2_events (st : P2State) (p : Option Port) : (setP2 st p s).events = s.events := rfl
@[simp] theorem setP2_verdict (st : P2State) (p : Option Port) : (setP2 st p s).verdict = s.verdict := rfl
@[simp] theorem setP2_lenAnswer (st : P2State) (p : Option Port) : (setP2 st p s).lenAnswer = s.lenAnswer := rfl
@[simp] theorem setP2_env (st : P2State) (p : Option Port) : (setP2 st p s).env = s.env := rfl
@[simp] theorem setP2_inbox (st : P2State) (p : Option Port) : (setP2 st p s).inbox = s.inbox := rfl
@[simp] theorem setP2_freeDraws (st : P2State) (p : Option Port) : (setP2 st p s).freeDraws = s.freeDraws := rfl

/-! ### setSeq -/

@[simp] theorem setSeq_sessionOpen (v : Byte) : (setSeq v s).sessionOpen = s.sessionOpen := rfl
@[simp] theorem setSeq_variant (v : Byte) : (setSeq v s).variant = s.variant := rfl
@[simp] theorem setSeq_nIn (v : Byte) : (setSeq v s).nIn = s.nIn := rfl
@[simp] theorem setSeq_nOut (v : Byte) : (setSeq v s).nOut = s.nOut := rfl
@[simp] theorem setSeq_lenTable (v : Byte) : (setSeq v s).lenTable = s.lenTable := rfl
@[simp] theorem setSeq_cursor (v : Byte) : (setSeq v s).cursor = s.cursor := rfl
@[simp] theorem setSeq_ia (v : Byte) : (setSeq v s).ia = s.ia := rfl
@[simp] theorem setSeq_scan (v : Byte) : (setSeq v s).scan = s.scan := rfl
@[simp] theorem setSeq_p2State (v : Byte) : (setSeq v s).p2State = s.p2State := rfl
@[simp] theorem setSeq_selectedPort (v : Byte) : (setSeq v s).selectedPort = s.selectedPort := rfl
@[simp] theorem setSeq_fifo (v : Byte) : (setSeq v s).fifo = s.fifo := rfl
@[simp] theorem setSeq_enc (v : Byte) : (setSeq v s).enc = s.enc := rfl
@[simp] theorem setSeq_seq (v : Byte) : (setSeq v s).seq = v := rfl
@[simp] theorem setSeq_lastOutputPort (v : Byte) : (setSeq v s).lastOutputPort = s.lastOutputPort := rfl
@[simp] theorem setSeq_active (v : Byte) : (setSeq v s).active = s.active := rfl
@[simp] theorem setSeq_rxPosted (v : Byte) : (setSeq v s).rxPosted = s.rxPosted := rfl
@[simp] theorem setSeq_events (v : Byte) : (setSeq v s).events = s.events := rfl
@[simp] theorem setSeq_verdict (v : Byte) : (setSeq v s).verdict = s.verdict := rfl
@[simp] theorem setSeq_lenAnswer (v : Byte) : (setSeq v s).lenAnswer = s.lenAnswer := rfl
@[simp] theorem setSeq_env (v : Byte) : (setSeq v s).env = s.env := rfl
@[simp] theorem setSeq_inbox (v : Byte) : (setSeq v s).inbox = s.inbox := rfl
@[simp] theorem setSeq_freeDraws (v : Byte) : (setSeq v s).freeDraws = s.freeDraws := rfl

/-! ### setLastOutputPort -/

@[simp] theorem setLastOutputPort_sessionOpen (q : Port) : (setLastOutputPort q s).sessionOpen = s.sessionOpen := rfl
@[simp] theorem setLastOutputPort_variant (q : Port) : (setLastOutputPort q s).variant = s.variant := rfl
@[simp] theorem setLastOutputPort_nIn (q : Port) : (setLastOutputPort q s).nIn = s.nIn := rfl
@[simp] theorem setLastOutputPort_nOut (q : Port) : (setLastOutputPort q s).nOut = s.nOut := rfl
@[simp] theorem setLastOutputPort_lenTable (q : Port) : (setLastOutputPort q s).lenTable = s.lenTable := rfl
@[simp] theorem setLastOutputPort_cursor (q : Port) : (setLastOutputPort q s).cursor = s.cursor := rfl
@[simp] theorem setLastOutputPort_ia (q : Port) : (setLastOutputPort q s).ia = s.ia := rfl
@[simp] theorem setLastOutputPort_scan (q : Port) : (setLastOutputPort q s).scan = s.scan := rfl
@[simp] theorem setLastOutputPort_p2State (q : Port) : (setLastOutputPort q s).p2State = s.p2State := rfl
@[simp] theorem setLastOutputPort_selectedPort (q : Port) : (setLastOutputPort q s).selectedPort = s.selectedPort := rfl
@[simp] theorem setLastOutputPort_fifo (q : Port) : (setLastOutputPort q s).fifo = s.fifo := rfl
@[simp] theorem setLastOutputPort_enc (q : Port) : (setLastOutputPort q s).enc = s.enc := rfl
@[simp] theorem setLastOutputPort_seq (q : Port) : (setLastOutputPort q s).seq = s.seq := rfl
@[simp] theorem setLastOutputPort_lastOutputPort (q : Port) : (setLastOutputPort q s).lastOutputPort = some q := rfl
@[simp] theorem setLastOutputPort_active (q : Port) : (setLastOutputPort q s).active = s.active := rfl
@[simp] theorem setLastOutputPort_rxPosted (q : Port) : (setLastOutputPort q s).rxPosted = s.rxPosted := rfl
@[simp] theorem setLastOutputPort_events (q : Port) : (setLastOutputPort q s).events = s.events := rfl
@[simp] theorem setLastOutputPort_verdict (q : Port) : (setLastOutputPort q s).verdict = s.verdict := rfl
@[simp] theorem setLastOutputPort_lenAnswer (q : Port) : (setLastOutputPort q s).lenAnswer = s.lenAnswer := rfl
@[simp] theorem setLastOutputPort_env (q : Port) : (setLastOutputPort q s).env = s.env := rfl
@[simp] theorem setLastOutputPort_inbox (q : Port) : (setLastOutputPort q s).inbox = s.inbox := rfl
@[simp] theorem setLastOutputPort_freeDraws (q : Port) : (setLastOutputPort q s).freeDraws = s.freeDraws := rfl

/-! ### setEnc -/

@[simp] theorem setEnc_sessionOpen (e : EncState) : (setEnc e s).sessionOpen = s.sessionOpen := rfl
@[simp] theorem setEnc_variant (e : EncState) : (setEnc e s).variant = s.variant := rfl
@[simp] theorem setEnc_nIn (e : EncState) : (setEnc e s).nIn = s.nIn := rfl
@[simp] theorem setEnc_nOut (e : EncState) : (setEnc e s).nOut = s.nOut := rfl
@[simp] theorem setEnc_lenTable (e : EncState) : (setEnc e s).lenTable = s.lenTable := rfl
@[simp] theorem setEnc_cursor (e : EncState) : (setEnc e s).cursor = s.cursor := rfl
@[simp] theorem setEnc_ia (e : EncState) : (setEnc e s).ia = s.ia := rfl
@[simp] theorem setEnc_scan (e : EncState) : (setEnc e s).scan = s.scan := rfl
@[simp] theorem setEnc_p2State (e : EncState) : (setEnc e s).p2State = s.p2State := rfl
@[simp] theorem setEnc_selectedPort (e : EncState) : (setEnc e s).selectedPort = s.selectedPort := rfl
@[simp] theorem setEnc_fifo (e : EncState) : (setEnc e s).fifo = s.fifo := rfl
@[simp] theorem setEnc_enc (e : EncState) : (setEnc e s).enc = e := rfl
@[simp] theorem setEnc_seq (e : EncState) : (setEnc e s).seq = s.seq := rfl
@[simp] theorem setEnc_lastOutputPort (e : EncState) : (setEnc e s).lastOutputPort = s.lastOutputPort := rfl
@[simp] theorem setEnc_active (e : EncState) : (setEnc e s).active = s.active := rfl
@[simp] theorem setEnc_rxPosted (e : EncState) : (setEnc e s).rxPosted = s.rxPosted := rfl
@[simp] theorem setEnc_events (e : EncState) : (setEnc e s).events = s.events := rfl
@[simp] theorem setEnc_verdict (e : EncState) : (setEnc e s).verdict = s.verdict := rfl
@[simp] theorem setEnc_lenAnswer (e : EncState) : (setEnc e s).lenAnswer = s.lenAnswer := rfl
@[simp] theorem setEnc_env (e : EncState) : (setEnc e s).env = s.env := rfl
@[simp] theorem setEnc_inbox (e : EncState) : (setEnc e s).inbox = s.inbox := rfl
@[simp] theorem setEnc_freeDraws (e : EncState) : (setEnc e s).freeDraws = s.freeDraws := rfl

/-! ### setCursor -/

@[simp] theorem setCursor_sessionOpen (i : Nat) : (setCursor i s).sessionOpen = s.sessionOpen := rfl
@[simp] theorem setCursor_variant (i : Nat) : (setCursor i s).variant = s.variant := rfl
@[simp] theorem setCursor_nIn (i : Nat) : (setCursor i s).nIn = s.nIn := rfl
@[simp] theorem setCursor_nOut (i : Nat) : (setCursor i s).nOut = s.nOut := rfl
@[simp] theorem setCursor_lenTable (i : Nat) : (setCursor i s).lenTable = s.lenTable := rfl
@[simp] theorem setCursor_cursor (i : Nat) : (setCursor i s).cursor = i := rfl
@[simp] theorem setCursor_ia (i : Nat) : (setCursor i s).ia = s.ia := rfl
@[simp] theorem setCursor_scan (i : Nat) : (setCursor i s).scan = s.scan := rfl
@[simp] theorem setCursor_p2State (i : Nat) : (setCursor i s).p2State = s.p2State := rfl
@[simp] theorem setCursor_selectedPort (i : Nat) : (setCursor i s).selectedPort = s.selectedPort := rfl
@[simp] theorem setCursor_fifo (i : Nat) : (setCursor i s).fifo = s.fifo := rfl
@[simp] theorem setCursor_enc (i : Nat) : (setCursor i s).enc = s.enc := rfl
@[simp] theorem setCursor_seq (i : Nat) : (setCursor i s).seq = s.seq := rfl
@[simp] theorem setCursor_lastOutputPort (i : Nat) : (setCursor i s).lastOutputPort = s.lastOutputPort := rfl
@[simp] theorem setCursor_active (i : Nat) : (setCursor i s).active = s.active := rfl
@[simp] theorem setCursor_rxPosted (i : Nat) : (setCursor i s).rxPosted = s.rxPosted := rfl
@[simp] theorem setCursor_events (i : Nat) : (setCursor i s).events = s.events := rfl
@[simp] theorem setCursor_verdict (i : Nat) : (setCursor i s).verdict = s.verdict := rfl
@[simp] theorem setCursor_lenAnswer (i : Nat) : (setCursor i s).lenAnswer = s.lenAnswer := rfl
@[simp] theorem setCursor_env (i : Nat) : (setCursor i s).env = s.env := rfl
@[simp] theorem setCursor_inbox (i : Nat) : (setCursor i s).inbox = s.inbox := rfl
@[simp] theorem setCursor_freeDraws (i : Nat) : (setCursor i s).freeDraws = s.freeDraws := rfl

/-! ### setLenAnswer -/

@[simp] theorem setLenAnswer_sessionOpen (c : LenClass) : (setLenAnswer c s).sessionOpen = s.sessionOpen := rfl
@[simp] theorem setLenAnswer_variant (c : LenClass) : (setLenAnswer c s).variant = s.variant := rfl
@[simp] theorem setLenAnswer_nIn (c : LenClass) : (setLenAnswer c s).nIn = s.nIn := rfl
@[simp] theorem setLenAnswer_nOut (c : LenClass) : (setLenAnswer c s).nOut = s.nOut := rfl
@[simp] theorem setLenAnswer_lenTable (c : LenClass) : (setLenAnswer c s).lenTable = s.lenTable := rfl
@[simp] theorem setLenAnswer_cursor (c : LenClass) : (setLenAnswer c s).cursor = s.cursor := rfl
@[simp] theorem setLenAnswer_ia (c : LenClass) : (setLenAnswer c s).ia = s.ia := rfl
@[simp] theorem setLenAnswer_scan (c : LenClass) : (setLenAnswer c s).scan = s.scan := rfl
@[simp] theorem setLenAnswer_p2State (c : LenClass) : (setLenAnswer c s).p2State = s.p2State := rfl
@[simp] theorem setLenAnswer_selectedPort (c : LenClass) : (setLenAnswer c s).selectedPort = s.selectedPort := rfl
@[simp] theorem setLenAnswer_fifo (c : LenClass) : (setLenAnswer c s).fifo = s.fifo := rfl
@[simp] theorem setLenAnswer_enc (c : LenClass) : (setLenAnswer c s).enc = s.enc := rfl
@[simp] theorem setLenAnswer_seq (c : LenClass) : (setLenAnswer c s).seq = s.seq := rfl
@[simp] theorem setLenAnswer_lastOutputPort (c : LenClass) : (setLenAnswer c s).lastOutputPort = s.lastOutputPort := rfl
@[simp] theorem setLenAnswer_active (c : LenClass) : (setLenAnswer c s).active = s.active := rfl
@[simp] theorem setLenAnswer_rxPosted (c : LenClass) : (setLenAnswer c s).rxPosted = s.rxPosted := rfl
@[simp] theorem setLenAnswer_events (c : LenClass) : (setLenAnswer c s).events = s.events := rfl
@[simp] theorem setLenAnswer_verdict (c : LenClass) : (setLenAnswer c s).verdict = s.verdict := rfl
@[simp] theorem setLenAnswer_lenAnswer (c : LenClass) : (setLenAnswer c s).lenAnswer = some c := rfl
@[simp] theorem setLenAnswer_env (c : LenClass) : (setLenAnswer c s).env = s.env := rfl
@[simp] theorem setLenAnswer_inbox (c : LenClass) : (setLenAnswer c s).inbox = s.inbox := rfl
@[simp] theorem setLenAnswer_freeDraws (c : LenClass) : (setLenAnswer c s).freeDraws = s.freeDraws := rfl

/-! ### modIn -/

@[simp] theorem modIn_sessionOpen (p : Port) (f : InRec → InRec) : (modIn p f s).sessionOpen = s.sessionOpen := rfl
@[simp] theorem modIn_variant (p : Port) (f : InRec → InRec) : (modIn p f s).variant = s.variant := rfl
@[simp] theorem modIn_nIn (p : Port) (f : InRec → InRec) : (modIn p f s).nIn = s.nIn := rfl
@[simp] theorem modIn_nOut (p : Port) (f : InRec → InRec) : (modIn p f s).nOut = s.nOut := rfl
@[simp] theorem modIn_lenTable (p : Port) (f : InRec → InRec) : (modIn p f s).lenTable = s.lenTable := rfl
@[simp] theorem modIn_cursor (p : Port) (f : InRec → InRec) : (modIn p f s).cursor = s.cursor := rfl
@[simp] theorem modIn_ia (p : Port) (f : InRec → InRec) : (modIn p f s).ia = s.ia.set p (f s.ia[p]) := rfl
@[simp] theorem modIn_scan (p : Port) (f : InRec → InRec) : (modIn p f s).scan = s.scan := rfl
@[simp] theorem modIn_p2State (p : Port) (f : InRec → InRec) : (modIn p f s).p2State = s.p2State := rfl
@[simp] theorem modIn_selectedPort (p : Port) (f : InRec → InRec) : (modIn p f s).selectedPort = s.selectedPort := rfl
@[simp] theorem modIn_fifo (p : Port) (f : InRec → InRec) : (modIn p f s).fifo = s.fifo := rfl
@[simp] theorem modIn_enc (p : Port) (f : InRec → InRec) : (modIn p f s).enc = s.enc := rfl
@[simp] theorem modIn_seq (p : Port) (f : InRec → InRec) : (modIn p f s).seq = s.seq := rfl
@[simp] theorem modIn_lastOutputPort (p : Port) (f : InRec → InRec) : (modIn p f s).lastOutputPort = s.lastOutputPort := rfl
@[simp] theorem modIn_active (p : Port) (f : InRec → InRec) : (modIn p f s).active = s.active := rfl
@[simp] theorem modIn_rxPosted (p : Port) (f : InRec → InRec) : (modIn p f s).rxPosted = s.rxPosted := rfl
@[simp] theorem modIn_events (p : Port) (f : InRec → InRec) : (modIn p f s).events = s.events := rfl
@[simp] theorem modIn_verdict (p : Port) (f : InRec → InRec) : (modIn p f s).verdict = s.verdict := rfl
@[simp] theorem modIn_lenAnswer (p : Port) (f : InRec → InRec) : (modIn p f s).lenAnswer = s.lenAnswer := rfl
@[simp] theorem modIn_env (p : Port) (f : InRec → InRec) : (modIn p f s).env = s.env := rfl
@[simp] theorem modIn_inbox (p : Port) (f : InRec → InRec) : (modIn p f s).inbox = s.inbox := rfl
@[simp] theorem modIn_freeDraws (p : Port) (f : InRec → InRec) : (modIn p f s).freeDraws = s.freeDraws := rfl

/-! ### modFifo -/

@[simp] theorem modFifo_sessionOpen (q : Port) (f : OutFifo → OutFifo) : (modFifo q f s).sessionOpen = s.sessionOpen := rfl
@[simp] theorem modFifo_variant (q : Port) (f : OutFifo → OutFifo) : (modFifo q f s).variant = s.variant := rfl
@[simp] theorem modFifo_nIn (q : Port) (f : OutFifo → OutFifo) : (modFifo q f s).nIn = s.nIn := rfl
@[simp] theorem modFifo_nOut (q : Port) (f : OutFifo → OutFifo) : (modFifo q f s).nOut = s.nOut := rfl
@[simp] theorem modFifo_lenTable (q : Port) (f : OutFifo → OutFifo) : (modFifo q f s).lenTable = s.lenTable := rfl
@[simp] theorem modFifo_cursor (q : Port) (f : OutFifo → OutFifo) : (modFifo q f s).cursor = s.cursor := rfl
@[simp] theorem modFifo_ia (q : Port) (f : OutFifo → OutFifo) : (modFifo q f s).ia = s.ia := rfl
@[simp] theorem modFifo_scan (q : Port) (f : OutFifo → OutFifo) : (modFifo q f s).scan = s.scan := rfl
@[simp] theorem modFifo_p2State (q : Port) (f : OutFifo → OutFifo) : (modFifo q f s).p2State = s.p2State := rfl
@[simp] theorem modFifo_selectedPort (q : Port) (f : OutFifo → OutFifo) : (modFifo q f s).selectedPort = s.selectedPort := rfl
@[simp] theorem modFifo_fifo (q : Port) (f : OutFifo → OutFifo) : (modFifo q f s).fifo = s.fifo.set q (f s.fifo[q]) := rfl
@[simp] theorem modFifo_enc (q : Port) (f : OutFifo → OutFifo) : (modFifo q f s).enc = s.enc := rfl
@[simp] theorem modFifo_seq (q : Port) (f : OutFifo → OutFifo) : (modFifo q f s).seq = s.seq := rfl
@[simp] theorem modFifo_lastOutputPort (q : Port) (f : OutFifo → OutFifo) : (modFifo q f s).lastOutputPort = s.lastOutputPort := rfl
@[simp] theorem modFifo_active (q : Port) (f : OutFifo → OutFifo) : (modFifo q f s).active = s.active := rfl
@[simp] theorem modFifo_rxPosted (q : Port) (f : OutFifo → OutFifo) : (modFifo q f s).rxPosted = s.rxPosted := rfl
@[simp] theorem modFifo_events (q : Port) (f : OutFifo → OutFifo) : (modFifo q f s).events = s.events := rfl
@[simp] theorem modFifo_verdict (q : Port) (f : OutFifo → OutFifo) : (modFifo q f s).verdict = s.verdict := rfl
@[simp] theorem modFifo_lenAnswer (q : Port) (f : OutFifo → OutFifo) : (modFifo q f s).lenAnswer = s.lenAnswer := rfl
@[simp] theorem modFifo_env (q : Port) (f : OutFifo → OutFifo) : (modFifo q f s).env = s.env := rfl
@[simp] theorem modFifo_inbox (q : Port) (f : OutFifo → OutFifo) : (modFifo q f s).inbox = s.inbox := rfl
@[simp] theorem modFifo_freeDraws (q : Port) (f : OutFifo → OutFifo) : (modFifo q f s).freeDraws = s.freeDraws := rfl

/-! ### appendOut -/

@[simp] theorem appendOut_sessionOpen (bytes : List Byte) : (appendOut bytes s).sessionOpen = s.sessionOpen := rfl
@[simp] theorem appendOut_variant (bytes : List Byte) : (appendOut bytes s).variant = s.variant := rfl
@[simp] theorem appendOut_nIn (bytes : List Byte) : (appendOut bytes s).nIn = s.nIn := rfl
@[simp] theorem appendOut_nOut (bytes : List Byte) : (appendOut bytes s).nOut = s.nOut := rfl
@[simp] theorem appendOut_lenTable (bytes : List Byte) : (appendOut bytes s).lenTable = s.lenTable := rfl
@[simp] theorem appendOut_cursor (bytes : List Byte) : (appendOut bytes s).cursor = s.cursor := rfl
@[simp] theorem appendOut_ia (bytes : List Byte) : (appendOut bytes s).ia = s.ia := rfl
@[simp] theorem appendOut_scan (bytes : List Byte) : (appendOut bytes s).scan = s.scan := rfl
@[simp] theorem appendOut_p2State (bytes : List Byte) : (appendOut bytes s).p2State = s.p2State := rfl
@[simp] theorem appendOut_selectedPort (bytes : List Byte) : (appendOut bytes s).selectedPort = s.selectedPort := rfl
@[simp] theorem appendOut_fifo (bytes : List Byte) : (appendOut bytes s).fifo = s.fifo := rfl
@[simp] theorem appendOut_enc (bytes : List Byte) : (appendOut bytes s).enc = { s.enc with out := s.enc.out ++ bytes } := rfl
@[simp] theorem appendOut_seq (bytes : List Byte) : (appendOut bytes s).seq = s.seq := rfl
@[simp] theorem appendOut_lastOutputPort (bytes : List Byte) : (appendOut bytes s).lastOutputPort = s.lastOutputPort := rfl
@[simp] theorem appendOut_active (bytes : List Byte) : (appendOut bytes s).active = s.active := rfl
@[simp] theorem appendOut_rxPosted (bytes : List Byte) : (appendOut bytes s).rxPosted = s.rxPosted := rfl
@[simp] theorem appendOut_events (bytes : List Byte) : (appendOut bytes s).events = s.events := rfl
@[simp] theorem appendOut_verdict (bytes : List Byte) : (appendOut bytes s).verdict = s.verdict := rfl
@[simp] theorem appendOut_lenAnswer (bytes : List Byte) : (appendOut bytes s).lenAnswer = s.lenAnswer := rfl
@[simp] theorem appendOut_env (bytes : List Byte) : (appendOut bytes s).env = s.env := rfl
@[simp] theorem appendOut_inbox (bytes : List Byte) : (appendOut bytes s).inbox = s.inbox := rfl
@[simp] theorem appendOut_freeDraws (bytes : List Byte) : (appendOut bytes s).freeDraws = s.freeDraws := rfl

/-! ### setDue -/

@[simp] theorem setDue_sessionOpen (d : P2Due) : (setDue d s).sessionOpen = s.sessionOpen := rfl
@[simp] theorem setDue_variant (d : P2Due) : (setDue d s).variant = s.variant := rfl
@[simp] theorem setDue_nIn (d : P2Due) : (setDue d s).nIn = s.nIn := rfl
@[simp] theorem setDue_nOut (d : P2Due) : (setDue d s).nOut = s.nOut := rfl
@[simp] theorem setDue_lenTable (d : P2Due) : (setDue d s).lenTable = s.lenTable := rfl
@[simp] theorem setDue_cursor (d : P2Due) : (setDue d s).cursor = s.cursor := rfl
@[simp] theorem setDue_ia (d : P2Due) : (setDue d s).ia = s.ia := rfl
@[simp] theorem setDue_scan (d : P2Due) : (setDue d s).scan = s.scan := rfl
@[simp] theorem setDue_p2State (d : P2Due) : (setDue d s).p2State = s.p2State := rfl
@[simp] theorem setDue_selectedPort (d : P2Due) : (setDue d s).selectedPort = s.selectedPort := rfl
@[simp] theorem setDue_fifo (d : P2Due) : (setDue d s).fifo = s.fifo := rfl
@[simp] theorem setDue_enc (d : P2Due) : (setDue d s).enc = { s.enc with due := d } := rfl
@[simp] theorem setDue_seq (d : P2Due) : (setDue d s).seq = s.seq := rfl
@[simp] theorem setDue_lastOutputPort (d : P2Due) : (setDue d s).lastOutputPort = s.lastOutputPort := rfl
@[simp] theorem setDue_active (d : P2Due) : (setDue d s).active = s.active := rfl
@[simp] theorem setDue_rxPosted (d : P2Due) : (setDue d s).rxPosted = s.rxPosted := rfl
@[simp] theorem setDue_events (d : P2Due) : (setDue d s).events = s.events := rfl
@[simp] theorem setDue_verdict (d : P2Due) : (setDue d s).verdict = s.verdict := rfl
@[simp] theorem setDue_lenAnswer (d : P2Due) : (setDue d s).lenAnswer = s.lenAnswer := rfl
@[simp] theorem setDue_env (d : P2Due) : (setDue d s).env = s.env := rfl
@[simp] theorem setDue_inbox (d : P2Due) : (setDue d s).inbox = s.inbox := rfl
@[simp] theorem setDue_freeDraws (d : P2Due) : (setDue d s).freeDraws = s.freeDraws := rfl

/-! ### p1EmitEnd -/

@[simp] theorem p1EmitEnd_sessionOpen : (p1EmitEnd s).sessionOpen = s.sessionOpen := rfl
@[simp] theorem p1EmitEnd_variant : (p1EmitEnd s).variant = s.variant := rfl
@[simp] theorem p1EmitEnd_nIn : (p1EmitEnd s).nIn = s.nIn := rfl
@[simp] theorem p1EmitEnd_nOut : (p1EmitEnd s).nOut = s.nOut := rfl
@[simp] theorem p1EmitEnd_lenTable : (p1EmitEnd s).lenTable = s.lenTable := rfl
@[simp] theorem p1EmitEnd_cursor : (p1EmitEnd s).cursor = s.cursor := rfl
@[simp] theorem p1EmitEnd_ia : (p1EmitEnd s).ia = s.ia := rfl
@[simp] theorem p1EmitEnd_scan : (p1EmitEnd s).scan = s.scan := rfl
@[simp] theorem p1EmitEnd_p2State : (p1EmitEnd s).p2State = s.p2State := rfl
@[simp] theorem p1EmitEnd_selectedPort : (p1EmitEnd s).selectedPort = s.selectedPort := rfl
@[simp] theorem p1EmitEnd_fifo : (p1EmitEnd s).fifo = s.fifo := rfl
@[simp] theorem p1EmitEnd_enc : (p1EmitEnd s).enc = { s.enc with out := s.enc.out ++ [0x00], ends := s.enc.ends + 1 } := rfl
@[simp] theorem p1EmitEnd_seq : (p1EmitEnd s).seq = s.seq := rfl
@[simp] theorem p1EmitEnd_lastOutputPort : (p1EmitEnd s).lastOutputPort = s.lastOutputPort := rfl
@[simp] theorem p1EmitEnd_active : (p1EmitEnd s).active = s.active := rfl
@[simp] theorem p1EmitEnd_rxPosted : (p1EmitEnd s).rxPosted = s.rxPosted := rfl
@[simp] theorem p1EmitEnd_events : (p1EmitEnd s).events = s.events := rfl
@[simp] theorem p1EmitEnd_verdict : (p1EmitEnd s).verdict = s.verdict := rfl
@[simp] theorem p1EmitEnd_lenAnswer : (p1EmitEnd s).lenAnswer = s.lenAnswer := rfl
@[simp] theorem p1EmitEnd_env : (p1EmitEnd s).env = s.env := rfl
@[simp] theorem p1EmitEnd_inbox : (p1EmitEnd s).inbox = s.inbox := rfl
@[simp] theorem p1EmitEnd_freeDraws : (p1EmitEnd s).freeDraws = s.freeDraws := rfl

/-! ### takeRequest -/

@[simp] theorem takeRequest_sessionOpen (r : Request) (rest : List Request) : (takeRequest r rest s).sessionOpen = s.sessionOpen := rfl
@[simp] theorem takeRequest_variant (r : Request) (rest : List Request) : (takeRequest r rest s).variant = s.variant := rfl
@[simp] theorem takeRequest_nIn (r : Request) (rest : List Request) : (takeRequest r rest s).nIn = s.nIn := rfl
@[simp] theorem takeRequest_nOut (r : Request) (rest : List Request) : (takeRequest r rest s).nOut = s.nOut := rfl
@[simp] theorem takeRequest_lenTable (r : Request) (rest : List Request) : (takeRequest r rest s).lenTable = s.lenTable := rfl
@[simp] theorem takeRequest_cursor (r : Request) (rest : List Request) : (takeRequest r rest s).cursor = s.cursor := rfl
@[simp] theorem takeRequest_ia (r : Request) (rest : List Request) : (takeRequest r rest s).ia = s.ia := rfl
@[simp] theorem takeRequest_scan (r : Request) (rest : List Request) : (takeRequest r rest s).scan = s.scan := rfl
@[simp] theorem takeRequest_p2State (r : Request) (rest : List Request) : (takeRequest r rest s).p2State = s.p2State := rfl
@[simp] theorem takeRequest_selectedPort (r : Request) (rest : List Request) : (takeRequest r rest s).selectedPort = s.selectedPort := rfl
@[simp] theorem takeRequest_fifo (r : Request) (rest : List Request) : (takeRequest r rest s).fifo = s.fifo := rfl
@[simp] theorem takeRequest_enc (r : Request) (rest : List Request) : (takeRequest r rest s).enc = s.enc := rfl
@[simp] theorem takeRequest_seq (r : Request) (rest : List Request) : (takeRequest r rest s).seq = s.seq := rfl
@[simp] theorem takeRequest_lastOutputPort (r : Request) (rest : List Request) : (takeRequest r rest s).lastOutputPort = s.lastOutputPort := rfl
@[simp] theorem takeRequest_active (r : Request) (rest : List Request) : (takeRequest r rest s).active = s.active := rfl
@[simp] theorem takeRequest_rxPosted (r : Request) (rest : List Request) : (takeRequest r rest s).rxPosted = s.rxPosted := rfl
@[simp] theorem takeRequest_events (r : Request) (rest : List Request) : (takeRequest r rest s).events = s.events := rfl
@[simp] theorem takeRequest_verdict (r : Request) (rest : List Request) : (takeRequest r rest s).verdict = s.verdict := rfl
@[simp] theorem takeRequest_lenAnswer (r : Request) (rest : List Request) : (takeRequest r rest s).lenAnswer = s.lenAnswer := rfl
@[simp] theorem takeRequest_env (r : Request) (rest : List Request) : (takeRequest r rest s).env = r.env := rfl
@[simp] theorem takeRequest_inbox (r : Request) (rest : List Request) : (takeRequest r rest s).inbox = rest := rfl
@[simp] theorem takeRequest_freeDraws (r : Request) (rest : List Request) : (takeRequest r rest s).freeDraws = s.freeDraws := rfl

/-! ### InRec.push -/

@[simp] theorem InRec.push_lastCommand (r : InRec) (b : Byte) : (r.push b).lastCommand = r.lastCommand := rfl
@[simp] theorem InRec.push_bytesRemaining (r : InRec) (b : Byte) : (r.push b).bytesRemaining = r.bytesRemaining := rfl
@[simp] theorem InRec.push_buf (r : InRec) (b : Byte) : (r.push b).buf = bufSet r.buf r.length b := rfl
@[simp] theorem InRec.push_length (r : InRec) (b : Byte) : (r.push b).length = r.length + 1 := rfl
@[simp] theorem InRec.push_deliverableLength (r : InRec) (b : Byte) : (r.push b).deliverableLength = r.deliverableLength := rfl

/-! ### InRec.clear -/

@[simp] theorem InRec.clear_lastCommand (r : InRec) : (r.clear).lastCommand = r.lastCommand := rfl
@[simp] theorem InRec.clear_bytesRemaining (r : InRec) : (r.clear).bytesRemaining = r.bytesRemaining := rfl
@[simp] theorem InRec.clear_buf (r : InRec) : (r.clear).buf = r.buf := rfl
@[simp] theorem InRec.clear_length (r : InRec) : (r.clear).length = 0 := rfl
@[simp] theorem InRec.clear_deliverableLength (r : InRec) : (r.clear).deliverableLength = 0 := rfl

/-! ### InRec.resetRecord -/

@[simp] theorem InRec.resetRecord_lastCommand (r : InRec) : (r.resetRecord).lastCommand = r.lastCommand := rfl
@[simp] theorem InRec.resetRecord_bytesRemaining (r : InRec) : (r.resetRecord).bytesRemaining = 0 := rfl
@[simp] theorem InRec.resetRecord_buf (r : InRec) : (r.resetRecord).buf = r.buf := rfl
@[simp] theorem InRec.resetRecord_length (r : InRec) : (r.resetRecord).length = 0 := rfl
@[simp] theorem InRec.resetRecord_deliverableLength (r : InRec) : (r.resetRecord).deliverableLength = 0 := rfl

/-! ### InRec.withCommand -/

@[simp] theorem InRec.withCommand_lastCommand (r : InRec) (b : Byte) : (r.withCommand b).lastCommand = b := rfl
@[simp] theorem InRec.withCommand_bytesRemaining (r : InRec) (b : Byte) : (r.withCommand b).bytesRemaining = r.bytesRemaining := rfl
@[simp] theorem InRec.withCommand_buf (r : InRec) (b : Byte) : (r.withCommand b).buf = r.buf := rfl
@[simp] theorem InRec.withCommand_length (r : InRec) (b : Byte) : (r.withCommand b).length = r.length := rfl
@[simp] theorem InRec.withCommand_deliverableLength (r : InRec) (b : Byte) : (r.withCommand b).deliverableLength = r.deliverableLength := rfl

/-! ### InRec.withRemaining -/

@[simp] theorem InRec.withRemaining_lastCommand (r : InRec) (n : Nat) : (r.withRemaining n).lastCommand = r.lastCommand := rfl
@[simp] theorem InRec.withRemaining_bytesRemaining (r : InRec) (n : Nat) : (r.withRemaining n).bytesRemaining = n := rfl
@[simp] theorem InRec.withRemaining_buf (r : InRec) (n : Nat) : (r.withRemaining n).buf = r.buf := rfl
@[simp] theorem InRec.withRemaining_length (r : InRec) (n : Nat) : (r.withRemaining n).length = r.length := rfl
@[simp] theorem InRec.withRemaining_deliverableLength (r : InRec) (n : Nat) : (r.withRemaining n).deliverableLength = r.deliverableLength := rfl

/-! ### InRec.markDeliverable -/

@[simp] theorem InRec.markDeliverable_lastCommand (r : InRec) : (r.markDeliverable).lastCommand = r.lastCommand := rfl
@[simp] theorem InRec.markDeliverable_bytesRemaining (r : InRec) : (r.markDeliverable).bytesRemaining = r.bytesRemaining := rfl
@[simp] theorem InRec.markDeliverable_buf (r : InRec) : (r.markDeliverable).buf = r.buf := rfl
@[simp] theorem InRec.markDeliverable_length (r : InRec) : (r.markDeliverable).length = r.length := rfl
@[simp] theorem InRec.markDeliverable_deliverableLength (r : InRec) : (r.markDeliverable).deliverableLength = r.length := rfl

/-! ### InRec.shiftOut -/

@[simp] theorem InRec.shiftOut_lastCommand (r : InRec) (d : Nat) : (r.shiftOut d).lastCommand = r.lastCommand := by rw [InRec.shiftOut]
@[simp] theorem InRec.shiftOut_bytesRemaining (r : InRec) (d : Nat) : (r.shiftOut d).bytesRemaining = r.bytesRemaining := by rw [InRec.shiftOut]
@[simp] theorem InRec.shiftOut_length (r : InRec) (d : Nat) : (r.shiftOut d).length = r.length - d := by rw [InRec.shiftOut]
@[simp] theorem InRec.shiftOut_deliverableLength (r : InRec) (d : Nat) : (r.shiftOut d).deliverableLength = 0 := by rw [InRec.shiftOut]

/-! ### OutFifo.write -/

@[simp] theorem OutFifo.write_buf (r : OutFifo) (b : Byte) : (r.write b).buf = bufSet r.buf r.wr b := rfl
@[simp] theorem OutFifo.write_rd (r : OutFifo) (b : Byte) : (r.write b).rd = r.rd := rfl
@[simp] theorem OutFifo.write_wr (r : OutFifo) (b : Byte) : (r.write b).wr = (r.wr + 1) % cap := rfl
@[simp] theorem OutFifo.write_length (r : OutFifo) (b : Byte) : (r.write b).length = r.length + 1 := rfl
@[simp] theorem OutFifo.write_sendableLength (r : OutFifo) (b : Byte) : (r.write b).sendableLength = r.sendableLength := rfl
@[simp] theorem OutFifo.write_lastCommand (r : OutFifo) (b : Byte) : (r.write b).lastCommand = r.lastCommand := rfl
@[simp] theorem OutFifo.write_commandSpanLength (r : OutFifo) (b : Byte) : (r.write b).commandSpanLength = r.commandSpanLength := rfl
@[simp] theorem OutFifo.write_remaining (r : OutFifo) (b : Byte) : (r.write b).remaining = r.remaining := rfl

/-! ### OutFifo.pop -/

@[simp] theorem OutFifo.pop_buf (r : OutFifo) : (r.pop).buf = r.buf := rfl
@[simp] theorem OutFifo.pop_rd (r : OutFifo) : (r.pop).rd = (r.rd + 1) % cap := rfl
@[simp] theorem OutFifo.pop_wr (r : OutFifo) : (r.pop).wr = r.wr := rfl
@[simp] theorem OutFifo.pop_length (r : OutFifo) : (r.pop).length = r.length - 1 := rfl
@[simp] theorem OutFifo.pop_sendableLength (r : OutFifo) : (r.pop).sendableLength = r.sendableLength - 1 := rfl
@[simp] theorem OutFifo.pop_lastCommand (r : OutFifo) : (r.pop).lastCommand = r.lastCommand := rfl
@[simp] theorem OutFifo.pop_commandSpanLength (r : OutFifo) : (r.pop).commandSpanLength = r.commandSpanLength := rfl
@[simp] theorem OutFifo.pop_remaining (r : OutFifo) : (r.pop).remaining = r.remaining := rfl

/-! ### OutFifo.withCommand -/

@[simp] theorem OutFifo.withCommand_buf (r : OutFifo) (b : Byte) : (r.withCommand b).buf = r.buf := rfl
@[simp] theorem OutFifo.withCommand_rd (r : OutFifo) (b : Byte) : (r.withCommand b).rd = r.rd := rfl
@[simp] theorem OutFifo.withCommand_wr (r : OutFifo) (b : Byte) : (r.withCommand b).wr = r.wr := rfl
@[simp] theorem OutFifo.withCommand_length (r : OutFifo) (b : Byte) : (r.withCommand b).length = r.length := rfl
@[simp] theorem OutFifo.withCommand_sendableLength (r : OutFifo) (b : Byte) : (r.withCommand b).sendableLength = r.sendableLength := rfl
@[simp] theorem OutFifo.withCommand_lastCommand (r : OutFifo) (b : Byte) : (r.withCommand b).lastCommand = b := rfl
@[simp] theorem OutFifo.withCommand_commandSpanLength (r : OutFifo) (b : Byte) : (r.withCommand b).commandSpanLength = r.commandSpanLength := rfl
@[simp] theorem OutFifo.withCommand_remaining (r : OutFifo) (b : Byte) : (r.withCommand b).remaining = r.remaining := rfl

/-! ### OutFifo.withSpan -/

@[simp] theorem OutFifo.withSpan_buf (r : OutFifo) (n : Nat) : (r.withSpan n).buf = r.buf := rfl
@[simp] theorem OutFifo.withSpan_rd (r : OutFifo) (n : Nat) : (r.withSpan n).rd = r.rd := rfl
@[simp] theorem OutFifo.withSpan_wr (r : OutFifo) (n : Nat) : (r.withSpan n).wr = r.wr := rfl
@[simp] theorem OutFifo.withSpan_length (r : OutFifo) (n : Nat) : (r.withSpan n).length = r.length := rfl
@[simp] theorem OutFifo.withSpan_sendableLength (r : OutFifo) (n : Nat) : (r.withSpan n).sendableLength = r.sendableLength := rfl
@[simp] theorem OutFifo.withSpan_lastCommand (r : OutFifo) (n : Nat) : (r.withSpan n).lastCommand = r.lastCommand := rfl
@[simp] theorem OutFifo.withSpan_commandSpanLength (r : OutFifo) (n : Nat) : (r.withSpan n).commandSpanLength = n := rfl
@[simp] theorem OutFifo.withSpan_remaining (r : OutFifo) (n : Nat) : (r.withSpan n).remaining = n := rfl

/-! ### OutFifo.markSendable -/

@[simp] theorem OutFifo.markSendable_buf (r : OutFifo) : (r.markSendable).buf = r.buf := rfl
@[simp] theorem OutFifo.markSendable_rd (r : OutFifo) : (r.markSendable).rd = r.rd := rfl
@[simp] theorem OutFifo.markSendable_wr (r : OutFifo) : (r.markSendable).wr = r.wr := rfl
@[simp] theorem OutFifo.markSendable_length (r : OutFifo) : (r.markSendable).length = r.length := rfl
@[simp] theorem OutFifo.markSendable_sendableLength (r : OutFifo) : (r.markSendable).sendableLength = r.length := rfl
@[simp] theorem OutFifo.markSendable_lastCommand (r : OutFifo) : (r.markSendable).lastCommand = r.lastCommand := rfl
@[simp] theorem OutFifo.markSendable_commandSpanLength (r : OutFifo) : (r.markSendable).commandSpanLength = r.commandSpanLength := rfl
@[simp] theorem OutFifo.markSendable_remaining (r : OutFifo) : (r.markSendable).remaining = r.remaining := rfl

end Sys2Proof.Machine
end

