-- ==== Sys2Proof/Laws/Ops.lean ====
section
/-! SUPPORT. One lemma per shared operation that says everything the operation can do, the read-after-write laws of the
buffers, and an induction principle for each loop. -/

namespace Sys2Proof.Machine

/-! ### Steps and rows -/

/-- Everything a step that answers a next state can have done. -/
theorem step_next (s t : State) :
    step s = .next t ↔
      (s.inbox = [] ∧ t = s) ∨
      ∃ r rest c i, s.inbox = r :: rest ∧ contextOf s r.chan = some c ∧ decode c r.bytes = .ok i ∧
        exec i (takeRequest r rest s) = .next t := by
  unfold step
  split
  · rename_i h; simp [h, eq_comm]
  · rename_i r rest h
    simp only [h, reduceCtorEq, false_and, false_or, List.cons.injEq]
    constructor
    · intro hs
      split at hs
      · cases hs
      · rename_i c hc
        split at hs
        · cases hs
        · rename_i i hi
          exact ⟨r, rest, c, i, ⟨rfl, rfl⟩, hc, hi, hs⟩
    · rintro ⟨r', rest', c, i, ⟨rfl, rfl⟩, hc, hi, hs⟩
      simp only [hc, hi, hs]

theorem whenSelected_next (row : String) (c : Bool) (t u : State) :
    whenSelected row c t = .next u ↔ c = true ∧ u = t := by
  unfold whenSelected
  split
  · rename_i h; simp [h, eq_comm]
  · rename_i h; simp [h]

theorem onSelected_next (row : String) (st : P2State) (f : Port → State → State) (s u : State) :
    onSelected row st f s = .next u ↔ ∃ p, s.selectedPort = some p ∧ inP2 st s = true ∧ u = f p s := by
  unfold onSelected
  split
  · rename_i h; simp [h]
  · rename_i p h; simp [h, whenSelected_next]

theorem inSession_iff (v : Variant) (s : State) :
    inSession v s = true ↔ s.sessionOpen = true ∧ s.variant = v := by
  simp [inSession]

/-! ### Buffers -/

theorem bufGet_lt (v : Vector Byte cap) (i : Nat) (h : i < cap) : bufGet v i = v[i] := by
  simp [bufGet, h]

/-- A byte that was written is read back. -/
theorem bufGet_bufSet_same (v : Vector Byte cap) (i : Nat) (b : Byte) (h : i < cap) :
    bufGet (bufSet v i b) i = b := by
  simp only [bufGet, bufSet, Vector.getElem?_setIfInBounds, h, if_true, Option.getD_some]

/-- Every other byte reads as before. -/
theorem bufGet_bufSet_ne (v : Vector Byte cap) (i k : Nat) (b : Byte) (h : k ≠ i) :
    bufGet (bufSet v i b) k = bufGet v k := by
  simp [bufGet, bufSet, Ne.symm h]

/-! ### Records -/

@[simp] theorem modIn_self (p : Port) (f : InRec → InRec) (s : State) : (modIn p f s).ia[p] = f s.ia[p] := by
  simp [modIn]

theorem modIn_ne (p p' : Port) (f : InRec → InRec) (s : State) (h : p' ≠ p) : (modIn p f s).ia[p'] = s.ia[p'] := by
  have h' : p.val ≠ p'.val := fun e => h (Fin.ext e).symm
  simp [modIn, h']

@[simp] theorem modFifo_self (q : Port) (f : OutFifo → OutFifo) (s : State) :
    (modFifo q f s).fifo[q] = f s.fifo[q] := by
  simp [modFifo]

theorem modFifo_ne (q q' : Port) (f : OutFifo → OutFifo) (s : State) (h : q' ≠ q) :
    (modFifo q f s).fifo[q'] = s.fifo[q'] := by
  have h' : q.val ≠ q'.val := fun e => h (Fin.ext e).symm
  simp [modFifo, h']

/-- Everything `Append` can do (20_memory.md R61). -/
theorem append_eq (p : Port) (b : Byte) (s : State) :
    (s.ia[p].length = cap ∧ append p b s = none) ∨
      (s.ia[p].length ≠ cap ∧ append p b s = some (modIn p (InRec.push b) s)) := by
  unfold append
  split <;> simp_all

/-- `Append` puts its byte after the buffered bytes. -/
theorem InRec.push_bytes (r : InRec) (b : Byte) (h : r.length < cap) : (r.push b).bytes = r.bytes ++ [b] := by
  apply List.ext_getElem?
  intro n
  have hl : r.buf.toList.length = 64 := by simp
  change r.length < 64 at h
  simp only [InRec.bytes, InRec.push, bufSet, List.getElem?_take, Vector.toList_setIfInBounds, List.getElem?_append,
    List.length_take, hl, List.getElem?_set]
  rcases lt_trichotomy n r.length with hn | hn | hn
  · simp [show n < r.length + 1 by omega, hn, show r.length ≠ n by omega, show n < min r.length 64 by omega]
  · subst hn
    simp [h, show min r.length 64 = r.length by omega]
  · simp [show ¬ n < r.length + 1 by omega, show ¬ n < min r.length 64 by omega,
      show n - min r.length 64 ≠ 0 by omega]

/-- `ShiftOut` keeps the bytes behind the first `d` (20_memory.md R62). -/
theorem InRec.shiftOut_bytes (r : InRec) (d : Nat) (h : r.length ≤ cap) (hd : d ≤ r.length) :
    (r.shiftOut d).bytes = r.bytes.drop d := by
  apply List.ext_getElem?
  intro n
  simp only [InRec.bytes, InRec.shiftOut, List.getElem?_take, List.getElem?_drop]
  by_cases hn : n < r.length - d
  · have h1 : n < cap := by omega
    have h2 : d + n < r.length := by omega
    have h3 : d + n < cap := by omega
    simp only [hn, h2, if_true, Vector.getElem?_toList, Vector.getElem?_eq_getElem h1, Vector.getElem?_eq_getElem h3,
      Vector.getElem_ofFn, Option.some.injEq]
    rw [bufGet_lt _ _ (by omega)]
    congr 1
    omega
  · simp [hn, show ¬ d + n < r.length by omega]

/-- `FifoWrite` puts its byte behind the queued bytes (20_memory.md R64). -/
theorem OutFifo.write_queued (f : OutFifo) (b : Byte) (hl : f.length < cap)
    (hw : f.wr = (f.rd + f.length) % cap) : (f.write b).queued = f.queued ++ [b] := by
  simp only [OutFifo.queued, OutFifo.write, List.range_succ, List.map_append, List.map_cons, List.map_nil]
  congr 1
  · apply List.map_congr_left
    intro x hx
    rw [List.mem_range] at hx
    apply bufGet_bufSet_ne
    rw [hw]
    simp only [cap] at *
    omega
  · rw [hw, bufGet_bufSet_same _ _ _ (Nat.mod_lt _ (by decide))]

/-- `FifoPop` takes the oldest queued byte, which is the head byte (20_memory.md R64). -/
theorem OutFifo.pop_queued (f : OutFifo) (hl : 0 < f.length) (hr : f.rd < cap) :
    f.queued = f.peek :: f.pop.queued := by
  obtain ⟨n, hn⟩ : ∃ n, f.length = n + 1 := ⟨f.length - 1, by omega⟩
  simp only [OutFifo.queued, OutFifo.pop, OutFifo.peek, hn, List.range_succ_eq_map, List.map_cons, List.map_map,
    Nat.add_sub_cancel, List.cons.injEq]
  refine ⟨by rw [Nat.add_zero, Nat.mod_eq_of_lt hr], List.map_congr_left fun x _ => ?_⟩
  simp only [Function.comp_apply, cap]
  congr 1
  omega

/-- The sendable bytes are the first of the queued bytes. -/
theorem OutFifo.sendable_eq_take (f : OutFifo) (h : f.sendableLength ≤ f.length) :
    f.sendable = f.queued.take f.sendableLength := by
  simp [OutFifo.sendable, OutFifo.queued, ← List.map_take, List.take_range, h]

/-! ### Protocol 1 -/

/-- Everything a payload step can do (41_p1_decoder.md R133). -/
theorem payloadStep_eq (classify : MaskPort → State → State) (s : State) :
    (payloadPort s = none ∧ payloadStep classify s = s) ∨
      ∃ i, payloadPort s = some i ∧
        ((s.scan.discard[i] = true ∧ payloadStep classify s = leaveData (takePort i s)) ∨
          (s.scan.discard[i] = false ∧ payloadStep classify s = leaveData (classify i (takePort i s)))) := by
  unfold payloadStep
  split
  · rename_i h; exact .inl ⟨h, rfl⟩
  · rename_i i h
    refine .inr ⟨i, h, ?_⟩
    by_cases hd : s.scan.discard[i] = true
    · exact .inl ⟨hd, by simp_all [discarding, takePort]⟩
    · exact .inr ⟨by simpa using hd, by simp_all [discarding, takePort]⟩

/-- Everything one delivery can do (41_p1_decoder.md R142). -/
theorem deliverPort_eq (p : Port) (s : State) :
    (s.ia[p].deliverableLength = 0 ∧ deliverPort p s = s) ∨
      (0 < s.ia[p].deliverableLength ∧ deliverPort p s =
        { s with
          ia := s.ia.set p (s.ia[p].shiftOut s.ia[p].deliverableLength)
          events := s.events ++ [.deliver p s.ia[p].deliverable] }) := by
  unfold deliverPort
  split
  · rename_i h; exact .inr ⟨h, rfl⟩
  · rename_i h; exact .inl ⟨by omega, rfl⟩

/-! ### Groups and submission -/

/-- Everything one slot byte does (45_p2_encoder.md R207). -/
theorem emitSlot_eq (b : Byte) (s : State) :
    emitSlot b s = { s with enc := if s.enc.k = 11 then
        { s.enc with out := s.enc.out ++ [b, 0x01, 0x00], k := 0, groups := s.enc.groups + 1 }
      else { s.enc with out := s.enc.out ++ [b], k := s.enc.k + 1 } } := by
  by_cases h : s.enc.k = 11
  · simp [emitSlot, addSlot, closeGroup, setEnc, h, trailer]
  · simp [emitSlot, addSlot, setEnc, group, h]

/-- Everything the padding of an open group does (45_p2_encoder.md R213). -/
theorem padSlots_eq (left : Nat) (s : State) (h0 : 0 < s.enc.k) (h1 : s.enc.k < 12) (hl : 12 - s.enc.k ≤ left) :
    padSlots left s = { s with enc := { s.enc with
      out := s.enc.out ++ List.replicate (12 - s.enc.k) 0xFF ++ [0x01, 0x00], k := 0, groups := s.enc.groups + 1 } } := by
  induction left generalizing s with
  | zero => omega
  | succ left ih =>
    rw [padSlots, if_neg (by omega), emitSlot_eq]
    by_cases hk : s.enc.k = 11
    · simp only [hk, if_true]
      cases left <;> simp [padSlots, filler]
    · simp only [hk, if_false]
      rw [ih _ (by simp) (by simp; omega) (by simp; omega)]
      simp only [show 12 - s.enc.k = (12 - (s.enc.k + 1)) + 1 by omega, List.replicate_succ]
      simp [filler]

/-- A group that is not open needs no padding. -/
theorem padSlots_zero (left : Nat) (s : State) (h : s.enc.k = 0) : padSlots left s = s := by
  cases left <;> simp [padSlots, h]

/-- Everything a switch marker does, which starts at `k ≤ 9` (45_p2_encoder.md R211). -/
theorem emitSwitchMarker_eq (q : Port) (s : State) (h : s.enc.k < 10) :
    emitSwitchMarker q s = { s with
      enc := { s.enc with out := s.enc.out ++ [0xF5, portByte q], k := s.enc.k + 2, due := .priming }
      lastOutputPort := some q } := by
  simp [emitSwitchMarker, emitSwitchPort, emitMarker, emitSlot_eq, setDue, setLastOutputPort, setEnc, marker,
    show s.enc.k ≠ 11 by omega, show s.enc.k ≠ 10 by omega]

/-- Everything a port switch can do (45_p2_encoder.md R211, R212). -/
theorem switchTo_eq (q : Port) (s : State) (h : s.enc.k < 10) :
    (primeDue s.fifo[q] = false ∧ switchTo q s = { s with
      enc := { s.enc with out := s.enc.out ++ [0xF5, portByte q], k := s.enc.k + 2, due := .slot }
      lastOutputPort := some q }) ∨
    (primeDue s.fifo[q] = true ∧ switchTo q s = { s with
      enc := if s.enc.k = 9 then
          { s.enc with
            out := s.enc.out ++ [0xF5, portByte q, s.fifo[q].lastCommand, 0x01, 0x00]
            k := 0, groups := s.enc.groups + 1, due := .slot }
        else
          { s.enc with
            out := s.enc.out ++ [0xF5, portByte q, s.fifo[q].lastCommand], k := s.enc.k + 3, due := .slot }
      lastOutputPort := some q }) := by
  cases hp : primeDue s.fifo[q]
  · exact .inl ⟨rfl, by simp [-Fin.getElem_fin, switchTo, prime, emitSwitchMarker_eq q s h, hp, setDue, setEnc]⟩
  · refine .inr ⟨rfl, ?_⟩
    by_cases hk : s.enc.k = 9 <;>
      simp [-Fin.getElem_fin, switchTo, prime, emitPrime, emitSwitchMarker_eq q s h, hp, emitSlot_eq, setDue, setEnc,
        hk]

/-- Everything a submission does (42_p1_encoder.md R157, 45_p2_encoder.md R217). -/
theorem submit_eq (variantArg : Byte) (subframes : List (Nat × Nat)) (s : State) :
    submit variantArg subframes s = { s with
      active := s.active || s.env.accept
      events := s.events ++ submitEvents variantArg s.enc.out subframes s.env.accept } := by
  cases h : s.env.accept <;> simp [submit, submitEvents, h, emit, setActive, raiseCondition, Condition.code]

/-! ### Pushes -/

/-- Everything one pushed byte can do (44_p2_fifo.md R190). -/
theorem pushOne_eq (q : Port) (b : Byte) (classify : OutFifo → OutFifo) (s : State) :
    (s.fifo[q].length = cap ∧
        pushOne q b classify s = { s with events := s.events ++ [.report 3 (portByte q)] }) ∨
      (s.fifo[q].length ≠ cap ∧
        pushOne q b classify s = { s with fifo := s.fifo.set q (classify (s.fifo[q].write b)) }) := by
  by_cases h : s.fifo[q].length = cap
  · exact .inl ⟨h, by simp only [pushOne, OutFifo.full, h, beq_self_eq_true, if_true]; rfl⟩
  · refine .inr ⟨h, ?_⟩
    simp only [pushOne, OutFifo.full, beq_iff_eq, h, if_false]
    rfl

/-- A push of one byte and more is the push of that byte and, unless it overflowed, of the others. -/
theorem fifoPush_cons (q : Port) (b : Byte) (bs : List Byte) (s : State) :
    (s.fifo[q].length = cap ∧
        fifoPush q (b :: bs) s = { s with events := s.events ++ [.report 3 (portByte q)] }) ∨
      (s.fifo[q].length ≠ cap ∧
        fifoPush q (b :: bs) s = fifoPush q bs
          { s with fifo := s.fifo.set q ((s.fifo[q].write b).pushClassify s.lenTable b) }) := by
  by_cases h : s.fifo[q].length = cap
  · exact .inl ⟨h, by simp only [fifoPush, OutFifo.full, h, beq_self_eq_true, if_true]; rfl⟩
  · refine .inr ⟨h, ?_⟩
    simp only [fifoPush, pushOne, OutFifo.full, beq_iff_eq, h, if_false]
    rfl

/-! ### Loops -/

/-- A property that every byte step keeps holds after the whole body, with the cursor moved past it. -/
theorem scanBytes_keeps (P : State → Prop) (f : Byte → State → State)
    (hstep : ∀ (b : Byte) (s : State), P s → P (setCursor (s.cursor + 1) (f b s)))
    (bytes : List Byte) (s : State) (h : P s) : P (scanBytes f bytes s) := by
  induction bytes generalizing s with
  | nil => exact h
  | cons b bs ih => exact ih _ (hstep b s h)

/-- The body is folded byte by byte (10_state.md R22). -/
theorem scanBytes_eq_foldl (f : Byte → State → State) (bytes : List Byte) (s : State) :
    scanBytes f bytes s = bytes.foldl (fun t b => { f b t with cursor := t.cursor + 1 }) s := by
  induction bytes generalizing s with
  | nil => rfl
  | cons b bs ih => exact ih _

theorem scanBytes_append (f : Byte → State → State) (x y : List Byte) (s : State) :
    scanBytes f (x ++ y) s = scanBytes f y (scanBytes f x s) := by
  induction x generalizing s with
  | nil => rfl
  | cons b bs ih => exact ih _

/-- A property that every delivery keeps holds after the delivery phase. -/
theorem deliverAll_keeps (P : State → Prop) (hstep : ∀ (p : Port) (s : State), P s → P (deliverPort p s))
    (s : State) (h : P s) : P (deliverAll s) := by
  unfold deliverAll
  generalize allPorts = l
  induction l generalizing s with
  | nil => exact h
  | cons p ps ih => exact ih _ (hstep p s h)

/-- A property that every pushed byte and the overflow report keep holds after a push. -/
theorem fifoPush_keeps (P : State → Prop) (q : Port)
    (hover : ∀ s : State, P s → P (fifoOverflow q s))
    (hpush : ∀ (b : Byte) (s : State), P s → s.fifo[q].length ≠ cap →
      P (modFifo q (fun f => (f.write b).pushClassify s.lenTable b) s))
    (bytes : List Byte) (s : State) (h : P s) : P (fifoPush q bytes s) := by
  induction bytes generalizing s with
  | nil => exact h
  | cons b bs ih =>
    by_cases hf : s.fifo[q].length = cap
    · simp only [fifoPush, OutFifo.full, hf, beq_self_eq_true, if_true]
      exact hover s h
    · simp only [fifoPush, pushOne, OutFifo.full, beq_iff_eq, hf, if_false]
      exact ih _ (hpush b s h hf)

/-- A property that the three actions of the drain loop keep holds after it (45_p2_encoder.md R210). -/
theorem drainLoop_keeps (P : State → Prop) (q : Port)
    (hbyte : ∀ s : State, P s → 0 < s.fifo[q].sendableLength → s.enc.groups ≠ maxSubframes →
      s.lastOutputPort = some q → P (emitFifoByte q s))
    (hpad : ∀ s : State, P s → 0 < s.fifo[q].sendableLength → s.enc.groups ≠ maxSubframes → switchLimit ≤ s.enc.k →
      P (padGroup s))
    (hswitch : ∀ s : State, P s → 0 < s.fifo[q].sendableLength → s.enc.groups ≠ maxSubframes →
      s.enc.k < switchLimit → P (switchTo q s))
    (left : Nat) (s : State) (h : P s) : P (drainLoop q left s) := by
  induction left generalizing s with
  | zero => exact h
  | succ left ih =>
    rw [drainLoop]
    split
    · exact h
    · rename_i h1
      split
      · exact h
      · rename_i h2
        split
        · rename_i h3; exact ih _ (hbyte s h (by omega) h2 h3)
        · split
          · rename_i h4; exact ih _ (hpad s h (by omega) h2 h4)
          · rename_i h4; exact ih _ (hswitch s h (by omega) h2 (by omega))

/-- A property that every port's drain keeps holds after the visit loop (45_p2_encoder.md R209). -/
theorem visitPorts_keeps (P : State → Prop) (ports : List Port)
    (hdrain : ∀ (q : Port) (s : State), q ∈ ports → P s → P (drainPort q s))
    (s : State) (h : P s) : P (visitPorts ports s) := by
  induction ports generalizing s with
  | nil => exact h
  | cons q qs ih =>
    rw [visitPorts]
    have hq := hdrain q s (by simp) h
    split
    · exact hq
    · exact ih (fun q' s' hm => hdrain q' s' (by simp [hm])) _ hq

/-- A property that a group and the idle mark keep holds after the group loop (42_p1_encoder.md R153, R154). -/
theorem p1Groups_keeps (P : State → Prop)
    (hidle : ∀ s : State, P s → groupMask s.enc = 0x00 → P (setActive false s))
    (hgroup : ∀ s : State, P s → groupMask s.enc ≠ 0x00 → P (p1Group (groupMask s.enc) s))
    (left : Nat) (s : State) (h : P s) : P (p1Groups left s) := by
  induction left generalizing s with
  | zero => exact h
  | succ left ih =>
    rw [p1Groups]
    split
    · rename_i hm; exact hidle s h hm
    · rename_i hm; exact ih _ (hgroup s h hm)

/-- A property that every producer's turn keeps holds after a pull phase. -/
theorem foldl_keeps (P : State → Prop) (f : State → Port → State) (ports : List Port)
    (hstep : ∀ (q : Port) (s : State), q ∈ ports → P s → P (f s q)) (s : State) (h : P s) :
    P (ports.foldl f s) := by
  induction ports generalizing s with
  | nil => exact h
  | cons q qs ih => exact ih (fun q' s' hm => hstep q' s' (by simp [hm])) _ (hstep q s (by simp) h)

end Sys2Proof.Machine
end

