-- ==== Sys2Proof/Laws/PerInstr.lean ====
section
/-! SUPPORT. Statements for all instructions, one lemma per constructor of `Instr`. -/

namespace Sys2Proof.Laws

/-- Every instruction has at least one byte, and at most three unless it is an RX_PACKET, which carries its packet
(30_encoding.md R92, R99). -/
def EncodedLength.Statement (i : Instr) : Prop :=
  1 ≤ (encode i).length ∧ ((∀ pkt, i ≠ .rxPacket pkt) → (encode i).length ≤ 3)

theorem encodedLength_of_length (i : Instr) (n : Fin 3) (h : (encode i).length = n.val + 1) :
    EncodedLength.Statement i := by
  unfold EncodedLength.Statement
  omega

theorem EncodedLength.reset (cfg : BitVec 16) : EncodedLength.Statement (.reset cfg) :=
  encodedLength_of_length _ 2 rfl

theorem EncodedLength.rxPacket (pkt : List Byte) : EncodedLength.Statement (.rxPacket pkt) :=
  ⟨by simp [encode], fun h => absurd rfl (h pkt)⟩

theorem EncodedLength.txKick : EncodedLength.Statement (.txKick) :=
  encodedLength_of_length _ 0 rfl

theorem EncodedLength.txDone (ok : Bool) : EncodedLength.Statement (.txDone ok) :=
  encodedLength_of_length _ 1 rfl

theorem EncodedLength.lenData (b : Byte) : EncodedLength.Statement (.lenData b) :=
  encodedLength_of_length _ 0 rfl

theorem EncodedLength.lenChan8 (b : Byte) : EncodedLength.Statement (.lenChan8 b) :=
  encodedLength_of_length _ 0 rfl

theorem EncodedLength.lenChan9 (b : Byte) : EncodedLength.Statement (.lenChan9 b) :=
  encodedLength_of_length _ 0 rfl

theorem EncodedLength.lenChanA (b : Byte) : EncodedLength.Statement (.lenChanA b) :=
  encodedLength_of_length _ 0 rfl

theorem EncodedLength.lenChanB (b : Byte) : EncodedLength.Statement (.lenChanB b) :=
  encodedLength_of_length _ 0 rfl

theorem EncodedLength.lenChanC (b : Byte) : EncodedLength.Statement (.lenChanC b) :=
  encodedLength_of_length _ 0 rfl

theorem EncodedLength.lenChanD (b : Byte) : EncodedLength.Statement (.lenChanD b) :=
  encodedLength_of_length _ 0 rfl

theorem EncodedLength.lenChanE (b : Byte) : EncodedLength.Statement (.lenChanE b) :=
  encodedLength_of_length _ 0 rfl

theorem EncodedLength.lenSysex : EncodedLength.Statement (.lenSysex) :=
  encodedLength_of_length _ 0 rfl

theorem EncodedLength.lenSysF1 : EncodedLength.Statement (.lenSysF1) :=
  encodedLength_of_length _ 0 rfl

theorem EncodedLength.lenSysF2 : EncodedLength.Statement (.lenSysF2) :=
  encodedLength_of_length _ 0 rfl

theorem EncodedLength.lenSysF3 : EncodedLength.Statement (.lenSysF3) :=
  encodedLength_of_length _ 0 rfl

theorem EncodedLength.lenSysF4 : EncodedLength.Statement (.lenSysF4) :=
  encodedLength_of_length _ 0 rfl

theorem EncodedLength.lenSysF5 : EncodedLength.Statement (.lenSysF5) :=
  encodedLength_of_length _ 0 rfl

theorem EncodedLength.lenSysF6 : EncodedLength.Statement (.lenSysF6) :=
  encodedLength_of_length _ 0 rfl

theorem EncodedLength.lenSysF7 : EncodedLength.Statement (.lenSysF7) :=
  encodedLength_of_length _ 0 rfl

theorem EncodedLength.lenSysF8 : EncodedLength.Statement (.lenSysF8) :=
  encodedLength_of_length _ 0 rfl

theorem EncodedLength.lenSysF9 : EncodedLength.Statement (.lenSysF9) :=
  encodedLength_of_length _ 0 rfl

theorem EncodedLength.lenSysFA : EncodedLength.Statement (.lenSysFA) :=
  encodedLength_of_length _ 0 rfl

theorem EncodedLength.lenSysFB : EncodedLength.Statement (.lenSysFB) :=
  encodedLength_of_length _ 0 rfl

theorem EncodedLength.lenSysFC : EncodedLength.Statement (.lenSysFC) :=
  encodedLength_of_length _ 0 rfl

theorem EncodedLength.lenSysFD : EncodedLength.Statement (.lenSysFD) :=
  encodedLength_of_length _ 0 rfl

theorem EncodedLength.lenSysFE : EncodedLength.Statement (.lenSysFE) :=
  encodedLength_of_length _ 0 rfl

theorem EncodedLength.lenFF : EncodedLength.Statement (.lenFF) :=
  encodedLength_of_length _ 0 rfl

theorem EncodedLength.p1Mask0 : EncodedLength.Statement (.p1Mask0) :=
  encodedLength_of_length _ 0 rfl

theorem EncodedLength.p1Mask (b : Byte) : EncodedLength.Statement (.p1Mask b) :=
  encodedLength_of_length _ 0 rfl

theorem EncodedLength.p1PayStatus (b : Byte) : EncodedLength.Statement (.p1PayStatus b) :=
  encodedLength_of_length _ 0 rfl

theorem EncodedLength.p1PaySysex : EncodedLength.Statement (.p1PaySysex) :=
  encodedLength_of_length _ 0 rfl

theorem EncodedLength.p1PayNac : EncodedLength.Statement (.p1PayNac) :=
  encodedLength_of_length _ 0 rfl

theorem EncodedLength.p1PayData (b : Byte) : EncodedLength.Statement (.p1PayData b) :=
  encodedLength_of_length _ 0 rfl

theorem EncodedLength.p1PayRs (b : Byte) : EncodedLength.Statement (.p1PayRs b) :=
  encodedLength_of_length _ 0 rfl

theorem EncodedLength.p1PayNoctx (b : Byte) : EncodedLength.Statement (.p1PayNoctx b) :=
  encodedLength_of_length _ 0 rfl

theorem EncodedLength.p2Fill : EncodedLength.Statement (.p2Fill) :=
  encodedLength_of_length _ 0 rfl

theorem EncodedLength.p2WaitMark : EncodedLength.Statement (.p2WaitMark) :=
  encodedLength_of_length _ 0 rfl

theorem EncodedLength.p2WaitOther (b : Byte) : EncodedLength.Statement (.p2WaitOther b) :=
  encodedLength_of_length _ 0 rfl

theorem EncodedLength.p2SelValid (b : Byte) : EncodedLength.Statement (.p2SelValid b) :=
  encodedLength_of_length _ 0 rfl

theorem EncodedLength.p2SelInvalid (b : Byte) : EncodedLength.Statement (.p2SelInvalid b) :=
  encodedLength_of_length _ 0 rfl

theorem EncodedLength.p2DataStatus (b : Byte) : EncodedLength.Statement (.p2DataStatus b) :=
  encodedLength_of_length _ 0 rfl

theorem EncodedLength.p2DataData (b : Byte) : EncodedLength.Statement (.p2DataData b) :=
  encodedLength_of_length _ 0 rfl

theorem EncodedLength.p2Fixed (b : Byte) : EncodedLength.Statement (.p2Fixed b) :=
  encodedLength_of_length _ 0 rfl

theorem EncodedLength.p2SysexEnd : EncodedLength.Statement (.p2SysexEnd) :=
  encodedLength_of_length _ 0 rfl

theorem EncodedLength.p2SysexByte (b : Byte) : EncodedLength.Statement (.p2SysexByte b) :=
  encodedLength_of_length _ 0 rfl

theorem EncodedLength.fifoSysex (q : Port) : EncodedLength.Statement (.fifoSysex q) :=
  encodedLength_of_length _ 0 rfl

theorem EncodedLength.fifoSysexEnd (q : Port) : EncodedLength.Statement (.fifoSysexEnd q) :=
  encodedLength_of_length _ 0 rfl

theorem EncodedLength.fifoStatus (q : Port) (b : Byte) : EncodedLength.Statement (.fifoStatus q b) :=
  encodedLength_of_length _ 0 rfl

theorem EncodedLength.fifoNac (q : Port) : EncodedLength.Statement (.fifoNac q) :=
  encodedLength_of_length _ 0 rfl

theorem EncodedLength.fifoDataSpan (q : Port) (b : Byte) : EncodedLength.Statement (.fifoDataSpan q b) :=
  encodedLength_of_length _ 0 rfl

theorem EncodedLength.fifoDataNospan (q : Port) (b : Byte) : EncodedLength.Statement (.fifoDataNospan q b) :=
  encodedLength_of_length _ 0 rfl

theorem EncodedLength.p2outMarker (q : Port) : EncodedLength.Statement (.p2outMarker q) :=
  encodedLength_of_length _ 0 rfl

theorem EncodedLength.p2outPort (q : Port) : EncodedLength.Statement (.p2outPort q) :=
  encodedLength_of_length _ 0 rfl

theorem EncodedLength.p2outPrime (b : Byte) : EncodedLength.Statement (.p2outPrime b) :=
  encodedLength_of_length _ 0 rfl

theorem EncodedLength.p2outFifo (b : Byte) : EncodedLength.Statement (.p2outFifo b) :=
  encodedLength_of_length _ 0 rfl

theorem EncodedLength.p2outPad : EncodedLength.Statement (.p2outPad) :=
  encodedLength_of_length _ 0 rfl

theorem EncodedLength.p2outFinalPad : EncodedLength.Statement (.p2outFinalPad) :=
  encodedLength_of_length _ 0 rfl

theorem EncodedLength.p2outTrailer : EncodedLength.Statement (.p2outTrailer) :=
  encodedLength_of_length _ 0 rfl

theorem EncodedLength.p1outSeq (b : Byte) : EncodedLength.Statement (.p1outSeq b) :=
  encodedLength_of_length _ 0 rfl

theorem EncodedLength.p1outRsvd : EncodedLength.Statement (.p1outRsvd) :=
  encodedLength_of_length _ 0 rfl

theorem EncodedLength.p1outMask (b : Byte) : EncodedLength.Statement (.p1outMask b) :=
  encodedLength_of_length _ 0 rfl

theorem EncodedLength.p1outPayload (b : Byte) : EncodedLength.Statement (.p1outPayload b) :=
  encodedLength_of_length _ 0 rfl

theorem EncodedLength.p1outEnd : EncodedLength.Statement (.p1outEnd) :=
  encodedLength_of_length _ 0 rfl

end Sys2Proof.Laws
end

