-- ==== Sys2Proof/Tests/Slice0.lean ====
section
/-! SUPPORT. Tests. Expected values come from the spec: the encodings of spec/opcode_table.json (30_encoding.md R99), the
vectors of 95_test_vectors.md (named V-… in the comments), and hand evaluation of the numbered rules. The last part
shows, for every statement with hypotheses, a state and operands that meet them. -/

set_option Elab.async false
set_option maxRecDepth 4096

namespace Sys2Proof.Tests

open Sys2Proof.Machine

/-! ### Helpers -/

/-- Buffer contents with given first bytes. -/
def bufOf (bytes : List Byte) : Vector Byte cap := Vector.ofFn (fun x : Fin cap => bytes.getD x.val 0x00)

/-- The notation `IA[p] = {lc, br, [buf], len, dl}` of 95_test_vectors.md. -/
def rec (lc : Byte) (br : Nat) (bytes : List Byte) (dl : Nat) : InRec := ⟨lc, br, bufOf bytes, bytes.length, dl⟩

/-- The notation `OF[q] = {len, snd, lc, span, rem}` of 95_test_vectors.md, with its bytes. -/
def que (bytes : List Byte) (snd : Nat) (lc : Byte) (span rem : Nat) : OutFifo :=
  ⟨bufOf bytes, 0, bytes.length % 64, bytes.length, snd, lc, span, rem⟩

/-- Answers of the producers of ports 0, 1, … and of the transport. -/
def answers (pull : List (List Byte)) (accept : Bool) : EnvAnswers :=
  ⟨Vector.ofFn (fun q : Port => pull.getD q.val []), accept⟩

def p1 : State := State.reset
def p2 : State := { State.reset with variant := .p2 }
def withIn (p : Port) (r : InRec) (s : State) : State := modIn p (fun _ => r) s
def withFifo (q : Port) (f : OutFifo) (s : State) : State := modFifo q (fun _ => f) s
def withEnv (e : EnvAnswers) (s : State) : State := { s with env := e }

/-- A P1 session in data mode. -/
def scanning (mask : Byte) (channel : Nat) : State :=
  { p1 with scan := ⟨true, mask, channel, Vector.replicate 8 false⟩ }

/-- A P2 session in a decoder state with a selected port. -/
def selecting (st : P2State) (p : Option Port) : State := { p2 with p2State := st, selectedPort := p }

/-- A packer in the middle of an invocation. -/
def packing (out : List Byte) (k groups : Nat) (last : Option Port) : State :=
  { p2 with enc := { EncState.init with out := out, k := k, groups := groups }, lastOutputPort := last }

/-- The packer owes `d` next. -/
def owing (d : P2Due) (s : State) : State := setDue d s

/-- A P1 encoder in the middle of an invocation. -/
def encoding1 (pulled : List (List Byte)) (out : List Byte) (j : Nat) (pending : Byte) : State :=
  { p1 with enc := { EncState.init with
      pulled := Vector.ofFn (fun q : Port => pulled.getD q.val []), out := out, j := j, pending := pending } }

/-- `i` runs from `s`, and the next state has property `f`. -/
def runs (i : Instr) (s : State) (f : State → Bool) : Bool :=
  match exec i s with
  | .next t => f t
  | .fault _ => false
  | .refused _ => false

/-- `i` answers a refusal. -/
def refuses (i : Instr) (s : State) : Bool :=
  match exec i s with
  | .next _ => false
  | .fault _ => false
  | .refused _ => true

/-- The next state of a step, if there is one. -/
def after (s : State) : Option State :=
  match step s with
  | .next t => some t
  | .fault _ => none
  | .refused _ => none

/-- The new events of `i` from `s` are `es`. -/
def emits (i : Instr) (s : State) (es : List Event) : Bool := runs i s (fun t => t.events == s.events ++ es)

/-- `IA[p]` reads as the vectors write it. -/
def isRec (r : InRec) (lc : Byte) (br : Nat) (bytes : List Byte) (dl : Nat) : Bool :=
  r.lastCommand == lc && r.bytesRemaining == br && r.bytes == bytes && r.length == bytes.length &&
    r.deliverableLength == dl

/-- `OF[q]` reads as the vectors write it. -/
def isQue (f : OutFifo) (len snd : Nat) (lc : Byte) (span rem : Nat) : Bool :=
  f.length == len && f.sendableLength == snd && f.lastCommand == lc && f.commandSpanLength == span && f.remaining == rem

/-- `bytes` decode in context `c` to `i`. -/
def reads (c : Context) (bytes : List Byte) (i : Instr) : Bool :=
  match decode c bytes with
  | .ok j => j == i
  | .error _ => false

/-- `bytes` are rejected in context `c` with this error. -/
def rejects (c : Context) (bytes : List Byte) (e : DecodeError) : Bool :=
  match decode c bytes with
  | .ok _ => false
  | .error e' => e' == e

/-! ### WellFormed: an ill-formed term for each check -/

theorem test_wf_refuses_lengthOf :
    [Instr.lenData 0x80, .lenChan8 0x90, .lenChan9 0x80, .lenChanA 0xB0, .lenChanB 0xA0, .lenChanC 0xD0,
      .lenChanD 0xC0, .lenChanE 0xF0].all (fun i => !i.wf) = true := by decide

theorem test_wf_refuses_p1 :
    [Instr.p1Mask 0x00, .p1PayStatus 0x7F, .p1PayStatus 0xF0, .p1PayStatus 0xFF, .p1PayData 0x80, .p1PayRs 0x80,
      .p1PayNoctx 0xFF].all (fun i => !i.wf) = true := by decide

theorem test_wf_refuses_p2 :
    [Instr.p2WaitOther 0xF5, .p2WaitOther 0xFF, .p2SelValid 0xFF, .p2SelInvalid 0xFF, .p2DataStatus 0x40,
      .p2DataStatus 0xFF, .p2DataData 0x80, .p2Fixed 0xFF, .p2SysexByte 0xF7, .p2SysexByte 0xFF].all
      (fun i => !i.wf) = true := by decide

theorem test_wf_refuses_fifo :
    [Instr.fifoStatus 0 0x7F, .fifoStatus 0 0xF0, .fifoStatus 0 0xF7, .fifoStatus 0 0xFF, .fifoDataSpan 0 0x80,
      .fifoDataNospan 0 0x80].all (fun i => !i.wf) = true := by decide

theorem test_wf_refuses_out : [Instr.p2outPrime 0x40, .p1outMask 0x00].all (fun i => !i.wf) = true := by decide

theorem test_wf_accepts :
    [Instr.lenChan8 0x8F, .p1PayStatus 0xFE, .p2DataStatus 0xF5, .fifoStatus 8 0xF5, .p2outPrime 0x90].all
      Instr.wf = true := by decide

/-! ### Decoding: every row's word, written out from the table -/

theorem test_decode_host :
    reads .host [0x00, 0x05, 0x50] (.reset 0x0550) && reads .host [0x01, 0xF5, 0x00] (.rxPacket [0xF5, 0x00]) &&
      reads .host [0x01] (.rxPacket []) && reads .host [0x02] .txKick && reads .host [0x03, 0x00] (.txDone false) &&
      reads .host [0x03, 0x01] (.txDone true) = true := by decide

theorem test_decode_host_rejects :
    rejects .host [] .empty && rejects .host [0x04] .reservedOperation && rejects .host [0x00, 0x05] .badOperands &&
      rejects .host [0x02, 0x00] .badOperands && rejects .host [0x03, 0x02] .badOperands = true := by decide

theorem test_decode_lengthOf_channel :
    reads .lengthOf [0b01111111] (.lenData 0x7F) && reads .lengthOf [0b10000000] (.lenChan8 0x80) &&
      reads .lengthOf [0b10011111] (.lenChan9 0x9F) && reads .lengthOf [0b10100001] (.lenChanA 0xA1) &&
      reads .lengthOf [0b10110010] (.lenChanB 0xB2) && reads .lengthOf [0b11000011] (.lenChanC 0xC3) &&
      reads .lengthOf [0b11010100] (.lenChanD 0xD4) && reads .lengthOf [0b11100101] (.lenChanE 0xE5) = true := by
  decide

theorem test_decode_lengthOf_system :
    reads .lengthOf [0b11110000] .lenSysex && reads .lengthOf [0b11110001] .lenSysF1 &&
      reads .lengthOf [0b11110010] .lenSysF2 && reads .lengthOf [0b11110011] .lenSysF3 &&
      reads .lengthOf [0b11110100] .lenSysF4 && reads .lengthOf [0b11110101] .lenSysF5 &&
      reads .lengthOf [0b11110110] .lenSysF6 && reads .lengthOf [0b11110111] .lenSysF7 &&
      reads .lengthOf [0b11111000] .lenSysF8 && reads .lengthOf [0b11111001] .lenSysF9 &&
      reads .lengthOf [0b11111010] .lenSysFA && reads .lengthOf [0b11111011] .lenSysFB &&
      reads .lengthOf [0b11111100] .lenSysFC && reads .lengthOf [0b11111101] .lenSysFD &&
      reads .lengthOf [0b11111110] .lenSysFE && reads .lengthOf [0b11111111] .lenFF = true := by decide

theorem test_decode_p1 :
    reads .p1Mask [0b00000000] .p1Mask0 && reads .p1Mask [0b10000001] (.p1Mask 0x81) &&
      reads (.p1Payload 2 (.fixed 3)) [0b10010000] (.p1PayStatus 0x90) &&
      reads (.p1Payload 2 (.fixed 3)) [0b11110000] .p1PaySysex &&
      reads (.p1Payload 2 (.fixed 3)) [0b11111111] .p1PayNac &&
      reads (.p1Payload 2 (.fixed 3)) [0b01000000] (.p1PayData 0x40) &&
      reads (.p1Payload 0 (.fixed 2)) [0b01000000] (.p1PayRs 0x40) &&
      reads (.p1Payload 0 (.fixed 1)) [0b01000000] (.p1PayNoctx 0x40) &&
      reads (.p1Payload 0 .variableLen) [0b01000000] (.p1PayNoctx 0x40) = true := by decide

theorem test_decode_p2 :
    reads (.p2 .fixedLen 5) [0b11111111] .p2Fill && reads (.p2 .waitMarker 5) [0b11110101] .p2WaitMark &&
      reads (.p2 .waitMarker 5) [0b10010000] (.p2WaitOther 0x90) &&
      reads (.p2 .portSelect 5) [0b00000100] (.p2SelValid 0x04) &&
      reads (.p2 .portSelect 5) [0b00000101] (.p2SelInvalid 0x05) &&
      reads (.p2 .data 5) [0b11110101] (.p2DataStatus 0xF5) && reads (.p2 .data 5) [0b01000000] (.p2DataData 0x40) &&
      reads (.p2 .fixedLen 5) [0b11110101] (.p2Fixed 0xF5) && reads (.p2 .sysEx 5) [0b11110111] .p2SysexEnd &&
      reads (.p2 .sysEx 5) [0b11111000] (.p2SysexByte 0xF8) = true := by decide

theorem test_decode_fifo :
    reads (.fifoPush 2 1) [0b11110000] (.fifoSysex 2) && reads (.fifoPush 2 1) [0b11110111] (.fifoSysexEnd 2) &&
      reads (.fifoPush 2 1) [0b11110101] (.fifoStatus 2 0xF5) && reads (.fifoPush 2 1) [0b11111111] (.fifoNac 2) &&
      reads (.fifoPush 2 1) [0b00000101] (.fifoDataSpan 2 0x05) &&
      reads (.fifoPush 2 0) [0b00000101] (.fifoDataNospan 2 0x05) = true := by decide

theorem test_decode_p2out :
    reads (.p2Out (.switchMarker 3)) [0b11110101] (.p2outMarker 3) &&
      reads (.p2Out .switchPort) [0b00001000] (.p2outPort 8) && reads (.p2Out .priming) [0b10010000] (.p2outPrime 0x90) &&
      reads (.p2Out .fifoByte) [0b01111111] (.p2outFifo 0x7F) && reads (.p2Out .deferredPad) [0b11111111] .p2outPad &&
      reads (.p2Out .finalPad) [0b11111111] .p2outFinalPad &&
      reads (.p2Out .groupTrailer) [0b00000001] .p2outTrailer &&
      rejects (.p2Out (.switchMarker 3)) [0xF5, 0x03] .notOneToken &&
      rejects (.p2Out .switchPort) [0x09] .badByte = true := by decide

theorem test_decode_p1out :
    reads (.p1Out .headerSeq) [0b11111111] (.p1outSeq 0xFF) && reads (.p1Out .headerRsvd) [0b00000000] .p1outRsvd &&
      reads (.p1Out .mask) [0b00000101] (.p1outMask 0x05) && reads (.p1Out .payload) [0b00000000] (.p1outPayload 0x00) &&
      reads (.p1Out .endMarker) [0b00000000] .p1outEnd &&
      rejects (.p1Out .mask) [0x00] .badByte = true := by decide

/-- A table word is laid out with its least significant byte first. -/
theorem test_tableWord :
    decodeTableWord 24 0x500500 = some (.reset 0x0550) ∧ decodeTableWord 8 0x01 = some (.rxPacket []) ∧
      decodeTableWord 8 0xF0 = some .lenSysex := by decide

/-- The table word of RESET runs as the first instruction after reset. -/
theorem test_withFetchWord :
    ((after (State.reset.withFetchWord 24 0x510500)).map (fun t => t.variant)) = some .p2 := by decide

/-! ### The CommandLengthTable (V-LEN-1 to V-LEN-11) -/

theorem test_len_data :
    runs (.lenData 0x7F) p1 (fun t => t.lenAnswer == some .notACommand) = true := by decide

theorem test_len_channel :
    runs (.lenChan8 0x8F) p1 (fun t => t.lenAnswer == some (.fixed 3)) &&
      runs (.lenChan9 0x90) p1 (fun t => t.lenAnswer == some (.fixed 3)) &&
      runs (.lenChanA 0xA0) p1 (fun t => t.lenAnswer == some (.fixed 3)) &&
      runs (.lenChanB 0xBF) p1 (fun t => t.lenAnswer == some (.fixed 3)) &&
      runs (.lenChanC 0xC0) p1 (fun t => t.lenAnswer == some (.fixed 2)) &&
      runs (.lenChanD 0xDF) p1 (fun t => t.lenAnswer == some (.fixed 2)) &&
      runs (.lenChanE 0xEF) p1 (fun t => t.lenAnswer == some (.fixed 3)) = true := by decide

theorem test_len_system :
    [Instr.lenSysF1, .lenSysF2, .lenSysF3].all (fun i => runs i p1 (fun t => t.lenAnswer == some (.fixed 2))) &&
      [Instr.lenSysF4, .lenSysF5, .lenSysF6, .lenSysF7, .lenSysF8, .lenSysF9, .lenSysFA, .lenSysFB, .lenSysFC,
        .lenSysFD, .lenSysFE].all (fun i => runs i p1 (fun t => t.lenAnswer == some (.fixed 1))) = true := by decide

theorem test_len_sysex_ff :
    runs .lenSysex p1 (fun t => t.lenAnswer == some .variableLen) &&
      runs .lenFF p1 (fun t => t.lenAnswer == some .notACommand) = true := by decide

/-! ### Host operations (95_test_vectors.md §2.7) -/

/-- V-CTL-3. -/
theorem test_reset_p2_6_9 :
    runs (.reset 0x0961) State.beforeReset (fun t =>
      t.variant == .p2 && t.nIn == 6 && t.nOut == 9 && t.sessionOpen && t.rxPosted && t.events == [.rxRearm]) = true := by
  decide

/-- V-CTL-4. -/
theorem test_reset_illegal :
    [0x0541, 0x0A51, 0x0553, 0x8551].all (fun w =>
      runs (.reset (BitVec.ofNat 16 w)) p1 (fun t => t.verdict == .refused .illegalCfg && t.events == p1.events)) = true := by
  decide

/-- V-CTL-5. -/
theorem test_before_reset :
    [Instr.rxPacket [0x00], .txKick, .txDone true].all (fun i =>
      runs i State.beforeReset (fun t => t.verdict == .refused .noSession && t.events == [])) = true := by decide

/-- V-CTL-6 and V-CTL-8. -/
theorem test_kick_and_done_no_effect :
    runs (.txDone true) p1 (fun t => t.events == p1.events && !t.active && t.seq == 0x00) &&
      runs .txKick { p1 with active := true } (fun t => t.events == p1.events && t.active && t.seq == 0x00) = true := by
  decide

/-- V-CTL-9. -/
theorem test_rx_empty : emits (.rxPacket []) p2 [.rxRearm] && emits (.rxPacket [0x07]) p1 [.rxRearm] = true := by decide

/-- V-CTL-10. -/
theorem test_pull_answer_too_long :
    runs .txKick (withEnv (answers [[0x40, 0x40, 0x40, 0x40]] true) p1) (fun t =>
      t.verdict == .refused .pullAnswerTooLong && t.seq == 0x00 && t.events == p1.events) = true := by decide

/-! ### Protocol 1 decoder (§2.2) -/

/-- V-P1D-4. -/
theorem test_p1_two_ports :
    emits (.rxPacket [0x00, 0x00, 0x05, 0x90, 0xC0, 0x05, 0x40, 0x05, 0x01, 0x7F, 0x00, 0x00]) p1
      [.deliver 0 [0x90, 0x40, 0x7F], .deliver 2 [0xC0, 0x05], .rxRearm] = true := by decide

/-- V-P1D-7. -/
theorem test_p1_tail_kept :
    runs (.rxPacket [0x00, 0x00, 0x01, 0x90, 0x01, 0x40, 0x00, 0x00]) p1 (fun t =>
      isRec t.ia[0] 0x90 1 [0x40] 0 && t.events == [.rxRearm, .deliver 0 [0x90], .rxRearm]) = true := by decide

theorem test_p1_mask0 : runs .p1Mask0 p1 (fun t => t == p1) && refuses .p1Mask0 p2 = true := by decide

theorem test_p1_mask :
    runs (.p1Mask 0x81) p1 (fun t => t.scan.inData && t.scan.mask == 0x81 && t.scan.channel == 0) = true := by decide

/-- R135 and R133: port 2 is next, the group goes on with port 7. -/
theorem test_p1_status :
    runs (.p1PayStatus 0xC5) (scanning 0x84 1) (fun t =>
      isRec t.ia[2] 0xC5 1 [0xC5] 1 && t.scan.mask == 0x80 && t.scan.channel == 3 && t.scan.inData) = true := by decide

theorem test_p1_sysex :
    runs .p1PaySysex (withIn 0 (rec 0x90 1 [0x90, 0x40] 1) (scanning 0x01 0)) (fun t =>
      isRec t.ia[0] 0xF0 0 [0x90, 0x40, 0xF0] 3 && !t.scan.inData) = true := by decide

/-- R137: `FF` keeps the count of the message in progress. -/
theorem test_p1_nac :
    runs .p1PayNac (withIn 0 (rec 0x90 1 [0x90, 0x40] 1) (scanning 0x01 0)) (fun t =>
      isRec t.ia[0] 0x90 1 [0x90, 0x40, 0xFF] 3) = true := by decide

theorem test_p1_data :
    runs (.p1PayData 0x40) (withIn 0 (rec 0x90 2 [0x90] 1) (scanning 0x01 0)) (fun t =>
      isRec t.ia[0] 0x90 1 [0x90, 0x40] 1) &&
    runs (.p1PayData 0x7F) (withIn 0 (rec 0x90 1 [0x90, 0x40] 1) (scanning 0x01 0)) (fun t =>
      isRec t.ia[0] 0x90 0 [0x90, 0x40, 0x7F] 3) = true := by decide

/-- R139, with a two-byte and a three-byte status. -/
theorem test_p1_rs :
    runs (.p1PayRs 0x06) (withIn 0 (rec 0xC0 0 [] 0) (scanning 0x01 0)) (fun t => isRec t.ia[0] 0xC0 0 [0xC0, 0x06] 2) &&
    runs (.p1PayRs 0x41) (withIn 0 (rec 0x90 0 [] 0) (scanning 0x01 0)) (fun t =>
      isRec t.ia[0] 0x90 1 [0x90, 0x41] 0) = true := by decide

theorem test_p1_noctx :
    runs (.p1PayNoctx 0x01) (withIn 0 (rec 0xF0 0 [0xF0] 1) (scanning 0x01 0)) (fun t =>
      isRec t.ia[0] 0xF0 0 [0xF0, 0x01] 2) && refuses (.p1PayNoctx 0x01) (withIn 0 (rec 0x90 0 [] 0) (scanning 0x01 0))
      = true := by decide

/-- R141 and V-P1D-14: the byte that finds the buffer full. -/
theorem test_p1_overflow :
    runs (.p1PayNoctx 0x40) (withIn 0 (rec 0x00 0 (List.replicate 64 0x40) 64) (scanning 0x01 0)) (fun t =>
      isRec t.ia[0] 0x00 0 [] 0 && t.events == [.rxRearm, .report 1 0x00] && t.scan.discard[0]) = true := by decide

/-! ### Protocol 2 decoder (§2.4) -/

/-- V-P2D-9. -/
theorem test_p2_marker_in_data :
    runs (.rxPacket [0x00, 0xF5, 0x00, 0x90, 0x40, 0x7F, 0xF5, 0x01, 0xC0, 0x05]) p2 (fun t =>
      t.events == [.rxRearm, .deliver 0 [0x90, 0x40, 0x7F], .deliver 1 [0xC0, 0x05], .rxRearm] &&
        isRec t.ia[0] 0xF5 3 [0xF5] 0) = true := by decide

/-- V-P2D-8. -/
theorem test_p2_sysex_filler :
    emits (.rxPacket [0x00, 0xF5, 0x00, 0xF0, 0x01, 0xFF, 0x02, 0xF7]) p2
      [.deliver 0 [0xF0, 0x01, 0x02, 0xF7], .rxRearm] = true := by decide

theorem test_p2_fill : runs .p2Fill (selecting .sysEx (some 1)) (fun t => t == selecting .sysEx (some 1)) = true := by
  decide

theorem test_p2_wait :
    runs .p2WaitMark p2 (fun t => t.p2State == .portSelect && t.selectedPort == none) &&
      runs (.p2WaitOther 0x90) p2 (fun t => t == p2) = true := by decide

/-- V-P2D-13, and R169: the buffer of the selected port is emptied and its last command is kept. -/
theorem test_p2_select :
    runs (.p2SelValid 0x04) (withIn 4 (rec 0x90 3 [0x90] 0) (selecting .portSelect none)) (fun t =>
      t.p2State == .data && t.selectedPort == some 4 && isRec t.ia[4] 0x90 3 [] 0) &&
    runs (.p2SelInvalid 0x05) (selecting .portSelect none) (fun t =>
      t.p2State == .waitMarker && t.events == [.rxRearm, .report 2 0x05]) &&
    refuses (.p2SelValid 0x05) (selecting .portSelect none) = true := by decide

/-- V-P2D-6 and R172. -/
theorem test_p2_data_status :
    runs (.p2DataStatus 0xF8) (selecting .data (some 2)) (fun t =>
      t.p2State == .data && t.events == [.rxRearm, .deliver 2 [0xF8]]) &&
    runs (.p2DataStatus 0xF0) (selecting .data (some 2)) (fun t =>
      t.p2State == .sysEx && isRec t.ia[2] 0xF0 0 [0xF0] 0) = true := by decide

/-- V-P2D-11 and V-P2D-10. -/
theorem test_p2_data_data :
    runs (.p2DataData 0x40) (selecting .data (some 4)) (fun t =>
      t.p2State == .fixedLen && isRec t.ia[4] 0x00 3 [0x00, 0x40] 0) &&
    runs (.p2DataData 0x40) (withIn 0 (rec 0xF5 0 [] 0) (selecting .data (some 0))) (fun t =>
      t.p2State == .portSelect && t.selectedPort == none && isRec t.ia[0] 0xF5 0 [0xF5, 0x40] 0) = true := by decide

/-- V-P2D-12: a status byte inside a fixed-length message is content. -/
theorem test_p2_fixed :
    runs (.p2Fixed 0xF5) (withIn 0 (rec 0x90 3 [0x90] 0) (selecting .fixedLen (some 0))) (fun t =>
      t.p2State == .fixedLen && isRec t.ia[0] 0x90 3 [0x90, 0xF5] 0) &&
    runs (.p2Fixed 0x01) (withIn 0 (rec 0x90 3 [0x90, 0xF5] 0) (selecting .fixedLen (some 0))) (fun t =>
      t.p2State == .data && t.events == [.rxRearm, .deliver 0 [0x90, 0xF5, 0x01]]) = true := by decide

/-- R175 and V-P2D-16. -/
theorem test_p2_sysex_end :
    runs .p2SysexEnd (withIn 0 (rec 0xF0 0 [0xF0, 0x01] 0) (selecting .sysEx (some 0))) (fun t =>
      t.p2State == .data && t.events == [.rxRearm, .deliver 0 [0xF0, 0x01, 0xF7]]) = true := by decide

theorem test_p2_sysex_byte :
    runs (.p2SysexByte 0x90) (withIn 0 (rec 0xF0 0 [0xF0] 0) (selecting .sysEx (some 0))) (fun t =>
      t.p2State == .sysEx && isRec t.ia[0] 0xF0 0 [0xF0, 0x90] 0) &&
    runs (.p2SysexByte 0x01) (withIn 0 (rec 0xF0 0 (List.replicate 64 0x01) 0) (selecting .sysEx (some 0))) (fun t =>
      t.p2State == .waitMarker && t.selectedPort == none && isRec t.ia[0] 0xF0 0 [] 0 &&
        t.events == [.rxRearm, .report 1 0x00]) = true := by decide

/-! ### Output FIFO (§2.5) -/

/-- V-FIFO-1. -/
theorem test_fifo_sysex :
    runs (.fifoSysex 0) p2 (fun t => isQue t.fifo[0] 1 0 0x00 0 0) &&
      runs (.fifoSysexEnd 0) (withFifo 0 (que [0xF0, 0x01, 0x02] 0 0x00 0 0) p2) (fun t =>
        isQue t.fifo[0] 4 4 0x00 0 0 && t.fifo[0].queued == [0xF0, 0x01, 0x02, 0xF7]) = true := by decide

/-- V-FIFO-2 and V-FIFO-4. -/
theorem test_fifo_status :
    runs (.fifoStatus 0 0x90) p2 (fun t => isQue t.fifo[0] 1 0 0x00 2 2) &&
      runs (.fifoStatus 0 0xF8) p2 (fun t => isQue t.fifo[0] 1 1 0x00 0 0) = true := by decide

/-- V-FIFO-6. -/
theorem test_fifo_nac : runs (.fifoNac 0) p2 (fun t => isQue t.fifo[0] 1 1 0x00 0 0) = true := by decide

/-- V-FIFO-3: the countdown restarts from the span. -/
theorem test_fifo_data_span :
    runs (.fifoDataSpan 0 0x41) (withFifo 0 (que [0x90, 0x40, 0x7F] 3 0x00 2 0) p2) (fun t =>
      isQue t.fifo[0] 4 3 0x00 2 1) &&
    runs (.fifoDataSpan 0 0x7F) (withFifo 0 (que [0x90, 0x40, 0x7F, 0x41] 3 0x00 2 1) p2) (fun t =>
      isQue t.fifo[0] 5 5 0x00 2 0) = true := by decide

/-- V-FIFO-5 and R33: port 5 does not exist when `N_OUT` is 5. -/
theorem test_fifo_data_nospan :
    runs (.fifoDataNospan 0 0x40) p2 (fun t => isQue t.fifo[0] 1 0 0x00 0 0) && refuses (.fifoDataNospan 5 0x40) p2
      = true := by decide

/-- R190: a full FIFO reports and drops. -/
theorem test_fifo_overflow :
    runs (.fifoSysexEnd 0) (withFifo 0 (que (List.replicate 64 0x40) 0 0x00 0 0) p2) (fun t =>
      isQue t.fifo[0] 64 0 0x00 0 0 && t.events == [.rxRearm, .report 3 0x00]) = true := by decide

/-! ### Protocol 2 encoder (§2.6) -/

/-- V-P2E-6: a switch at `k = 9` with a priming byte, over two groups. -/
theorem test_p2e_switch_at_9 :
    runs .txKick (withFifo 0 (que [0x90, 0x40, 0x7F, 0x90, 0x41, 0x7F, 0x90, 0x42, 0x7F] 9 0x00 2 0)
      (withFifo 1 (que [0x43, 0x7F] 2 0x90 2 0) { p2 with env := answers [] true, lastOutputPort := some 0 })) (fun t =>
      t.events.getLast? == some (.txSubmit [0x90, 0x40, 0x7F, 0x90, 0x41, 0x7F, 0x90, 0x42, 0x7F, 0xF5, 0x01, 0x90,
        0x01, 0x00, 0x43, 0x7F, 0xFF, 0xFF, 0xFF, 0xFF, 0xFF, 0xFF, 0xFF, 0xFF, 0xFF, 0xFF, 0x01, 0x00]
        [(0, 14), (14, 14)] true) && t.active && t.lastOutputPort == some 1) = true := by decide

/-- V-CTL-11. -/
theorem test_p2e_overflow_and_reject :
    runs .txKick (withFifo 0 (que (List.replicate 64 0x40) 0 0x00 0 0)
      (withEnv (answers [[0x40], [0x90, 0x40, 0x7F]] false) p2)) (fun t =>
      t.events == [.rxRearm, .pull 0 3 [0x40], .report 3 0x00, .pull 1 3 [0x90, 0x40, 0x7F], .pull 2 3 [], .pull 3 3 [],
        .pull 4 3 [], .txSubmit [0xF5, 0x01, 0x90, 0x40, 0x7F, 0xFF, 0xFF, 0xFF, 0xFF, 0xFF, 0xFF, 0xFF, 0x01, 0x00]
        [(0, 14)] false, .report 4 0x02] && !t.active && t.lastOutputPort == some 1 && t.fifo[1].lastCommand == 0x90)
      = true := by decide

theorem test_p2out_marker :
    runs (.p2outMarker 1) (withFifo 1 (que [0x90] 1 0x00 0 0) (packing [] 9 0 none)) (fun t =>
      t.enc.out == [0xF5] && t.enc.k == 10 && t.enc.due == .index 1 && t.lastOutputPort == none) &&
    refuses (.p2outMarker 1) (withFifo 1 (que [0x90] 1 0x00 0 0) (packing [] 10 0 none)) = true := by decide

/-- R211: the index byte comes right after its marker, and not after a FIFO byte `F5`. -/
theorem test_p2out_port :
    runs (.p2outPort 1) (owing (.index 1) (withFifo 1 (que [0x90] 1 0x00 0 0) (packing [0xF5] 1 0 none))) (fun t =>
      t.enc.out == [0xF5, 0x01] && t.enc.k == 2 && t.lastOutputPort == some 1) &&
    refuses (.p2outPort 1) (withFifo 1 (que [0x90] 1 0x00 0 0) (packing [0xF5] 1 0 none)) = true := by decide

/-- R212 and R207: the priming byte of V-P2E-6 fills slot 11; it comes right after its marker and nowhere else. -/
theorem test_p2out_prime :
    runs (.p2outPrime 0x90) (owing .priming (withFifo 1 (que [0x43, 0x7F] 2 0x90 2 0) (packing [0xF5, 0x01] 11 0 (some 1))))
      (fun t =>
        t.enc.out == [0xF5, 0x01, 0x90, 0x01, 0x00] && t.enc.k == 0 && t.enc.groups == 1 && t.fifo[1].length == 2) &&
    refuses (.p2outPrime 0x90) (owing .priming (withFifo 1 (que [0x43, 0x7F] 2 0x00 2 0)
      (packing [0xF5, 0x01] 11 0 (some 1)))) &&
    refuses (.p2outPrime 0x90) (withFifo 1 (que [0x43, 0x7F] 2 0x90 2 0) (packing [0xF5, 0x01] 11 0 (some 1))) = true := by
  decide

theorem test_p2out_fifo :
    runs (.p2outFifo 0x90) (withFifo 1 (que [0x90, 0x40] 2 0x80 0 0) (packing [] 2 0 (some 1))) (fun t =>
      t.enc.out == [0x90] && t.enc.k == 3 && t.fifo[1].queued == [0x40] && isQue t.fifo[1] 1 1 0x90 0 0) &&
    refuses (.p2outFifo 0x43) (owing .priming (withFifo 1 (que [0x43, 0x7F] 2 0x90 2 0) (packing [] 2 0 (some 1))))
      = true := by decide

/-- Program 3: two fillers and a trailer close the group at `k = 10`. -/
theorem test_p2out_pad :
    runs .p2outPad (withFifo 1 (que [0xC0] 1 0x00 0 0) (packing [] 10 0 (some 0))) (fun t =>
      t.enc.out == [0xFF, 0xFF, 0x01, 0x00] && t.enc.k == 0 && t.enc.groups == 1) &&
    refuses .p2outPad (packing [] 10 0 (some 0)) = true := by decide

theorem test_p2out_final_pad :
    runs .p2outFinalPad (packing [] 11 3 (some 0)) (fun t => t.enc.out == [0xFF, 0x01, 0x00] && t.enc.groups == 4) &&
      refuses .p2outFinalPad (packing [] 0 0 (some 0)) = true := by decide

theorem test_p2out_trailer :
    runs .p2outTrailer (packing [0x7F] 12 0 (some 0)) (fun t => t.enc.out == [0x7F, 0x01, 0x00] && t.enc.k == 0) &&
      refuses .p2outTrailer (packing [0x7F] 11 0 (some 0)) = true := by decide

/-! ### Protocol 1 encoder (§2.3) -/

/-- V-P1E-2. -/
theorem test_p1e_two_ports :
    runs .txKick (withEnv (answers [[0x90, 0x40, 0x7F], [], [0xC0, 0x05]] true) p1) (fun t =>
      t.events.getLast? == some (.txSubmit [0x00, 0x00, 0x05, 0x90, 0xC0, 0x05, 0x40, 0x05, 0x01, 0x7F, 0x00, 0x00]
        [(0, 12)] true) && t.seq == 1 && t.active) = true := by decide

/-- V-P1E-4 and V-P1E-9: the completion retries, and the sequence counter wraps. -/
theorem test_p1e_done_wrap :
    runs (.txDone false) (withEnv (answers [[], [0xF8]] true) { p1 with active := true, seq := 0xFF }) (fun t =>
      t.events.getLast? == some (.txSubmit [0xFF, 0x00, 0x02, 0xF8, 0x00, 0x00] [(0, 6)] true) && t.seq == 0x00 &&
        t.active) = true := by decide

theorem test_p1out_header :
    runs (.p1outSeq 0xFF) { p1 with seq := 0xFF } (fun t => t.enc.out == [0xFF] && t.seq == 0x00) &&
      runs .p1outRsvd (encoding1 [] [0x07] 0 0x00) (fun t => t.enc.out == [0x07, 0x00]) = true := by decide

theorem test_p1out_mask :
    runs (.p1outMask 0x05) (encoding1 [[0x90], [], [0xC0, 0x05]] [0x00, 0x00] 0 0x00) (fun t =>
      t.enc.out == [0x00, 0x00, 0x05] && t.enc.pending == 0x05) &&
    refuses (.p1outMask 0x05) (encoding1 [[0x90], [], [0xC0, 0x05]] [0x00, 0x00] 1 0x00) = true := by decide

theorem test_p1out_payload :
    runs (.p1outPayload 0x05) (encoding1 [[0x90], [], [0xC0, 0x05]] [0x04] 1 0x04) (fun t =>
      t.enc.out == [0x04, 0x05] && t.enc.pending == 0x00 && t.enc.j == 2) = true := by decide

theorem test_p1out_end :
    runs .p1outEnd (encoding1 [[0x90]] [0x00, 0x00, 0x01, 0x90] 1 0x00) (fun t =>
      t.enc.out == [0x00, 0x00, 0x01, 0x90, 0x00] && runs .p1outEnd t (fun u =>
        u.enc.out == [0x00, 0x00, 0x01, 0x90, 0x00, 0x00] && refuses .p1outEnd u)) &&
    refuses .p1outEnd (encoding1 [[0x90]] [0x00, 0x00] 0 0x00) = true := by decide

/-! ### Witnesses: states and operands that meet the hypotheses of each statement -/

theorem runs_next (i : Instr) (s : State) (h : runs i s (fun _ => true) = true) : ∃ t, exec i s = .next t := by
  unfold runs at h
  split at h
  · exact ⟨_, by assumption⟩
  · cases h
  · cases h

theorem after_next (s : State) (h : (after s).isSome = true) : ∃ t, step s = .next t := by
  unfold after at h
  split at h
  · exact ⟨_, by assumption⟩
  · cases h
  · cases h

/-- A state with one request in its inbox. -/
def asking (c : Channel) (bytes : List Byte) (s : State) : State := offer ⟨c, bytes, EnvAnswers.silent⟩ s

/-- The RX_PACKET of a P1 packet with one message for port 0. -/
def askingP1 : State := asking .host [0x01, 0x00, 0x00, 0x01, 0xF8] p1

/-- The RX_PACKET of V-P2D-6. -/
def askingP2 : State := asking .host [0x01, 0x00, 0xF5, 0x02, 0xF8] p2

theorem askingP1_next : ∃ t, step askingP1 = .next t := after_next _ (by decide)
theorem askingP2_next : ∃ t, step askingP2 = .next t := after_next _ (by decide)

theorem witness_StepRunsTheDecodedRequest :
    askingP1.inbox = [⟨.host, [0x01, 0x00, 0x00, 0x01, 0xF8], EnvAnswers.silent⟩] ∧
      contextOf askingP1 .host = some .host ∧
      reads .host [0x01, 0x00, 0x00, 0x01, 0xF8] (.rxPacket [0x00, 0x00, 0x01, 0xF8]) = true ∧ p1.inbox = [] := by
  decide

theorem witness_DecodeInvertsEncode :
    (Instr.p2SelValid 0x04).wf = true ∧ (Context.p2 .portSelect 5).admits (.p2SelValid 0x04) = true := by decide

theorem witness_EncodeInvertsDecode : decode (.p2 .portSelect 5) [0x04] = .ok (.p2SelValid 0x04) := rfl

theorem witness_ByteGrammarIsTotal :
    (∃ r l, Context.p1Payload 0 .notACommand = .p1Payload r l) ∧ (∃ st n, Context.p2 .data 5 = .p2 st n) ∧
      (∃ q n, Context.fifoPush 0 2 = .fifoPush q n) := ⟨⟨_, _, rfl⟩, ⟨_, _, rfl⟩, ⟨_, _, rfl⟩⟩

theorem witness_EveryByteStepRunsItsRow :
    rxContext (scanning 0x84 1) = some (.p1Payload 0 .notACommand) ∧ (scanning 0x84 1).variant = .p1 ∧
      reads (.p1Payload 0 .notACommand) [0x40] (.p1PayNoctx 0x40) = true ∧
      rxContext (selecting .data (some 4)) = some (.p2 .data 5) ∧ p2Consistent (selecting .data (some 4)) = true ∧
      reads (.p2 .data 5) [0x40] (.p2DataData 0x40) = true ∧
      p2.sessionOpen = true ∧ p2.variant = .p2 ∧ (4 : Port).val < p2.nOut.val ∧
      reads (.fifoPush 4 p2.fifo[4].commandSpanLength) [0x40] (.fifoDataNospan 4 0x40) = true := by decide

theorem witness_ResetStartsOrRefusesASession :
    (BitVec.extractLsb' 1 3 0x0991#16 = 0 ∧ BitVec.extractLsb' 12 4 0x0991#16 = 0 ∧
      (BitVec.extractLsb' 4 4 0x0991#16).toNat = 9 ∧ (BitVec.extractLsb' 8 4 0x0991#16).toNat = 9) ∧
      (BitVec.extractLsb' 4 4 0x0541#16).toNat < 5 ∧ 9 < (BitVec.extractLsb' 8 4 0x0A51#16).toNat := by decide

/-- A producer answers one byte too many. -/
def longAnswer : State := withEnv (answers [[], [], [], [], [0x40, 0x40, 0x40, 0x40]] true) p1

theorem witness_RefusedOperationsChangeNothing :
    State.beforeReset.sessionOpen = false ∧
      ({ p1 with rxPosted := false }.sessionOpen = true ∧ { p1 with rxPosted := false }.rxPosted = false) ∧
      longAnswer.sessionOpen = true ∧ (4 : Port).val < longAnswer.nOut.val ∧ (4 : Port).val < 8 ∧
      3 < (longAnswer.env.pull[(4 : Port)]).length ∧ longAnswer.active = false ∧
      { longAnswer with active := true }.active = true := by decide

theorem witness_ChannelStatusLengths :
    p1.lenTable.wf = true ∧ (Instr.lenChan8 0x80).wf = true ∧ (Instr.lenChan9 0x9F).wf = true ∧
      (Instr.lenChanA 0xA0).wf = true ∧ (Instr.lenChanB 0xBF).wf = true ∧ (Instr.lenChanC 0xC0).wf = true ∧
      (Instr.lenChanD 0xDF).wf = true ∧ (Instr.lenChanE 0xEF).wf = true := by decide

theorem witness_SystemByteLengths : p1.lenTable.wf = true := by decide

theorem witness_NonFixedLengths : (0x7F#8).toNat < 0x80 := by decide

theorem witness_OnlyResetWritesTheConfiguration :
    (∃ t, exec .p2WaitMark p2 = .next t) ∧ ∀ cfg, Instr.p2WaitMark ≠ .reset cfg :=
  ⟨runs_next _ _ (by decide), fun _ h => by cases h⟩

theorem witness_MaskByteOpensAGroup :
    p1.sessionOpen = true ∧ p1.variant = .p1 ∧ p1.scan.inData = false ∧ (0x01 : Byte) ≠ 0x00 := by decide

/-- Port 2 owes a byte and discards. -/
def discardingState : State := setDiscard 2 (scanning 0x84 1)

theorem witness_PayloadByteGoesToTheNextMaskPort :
    (scanning 0x84 1).variant = .p1 ∧ (scanning 0x84 1).scan.inData = true ∧ payloadPort (scanning 0x84 1) = some 2 ∧
      rxContext (scanning 0x84 1) = some (.p1Payload 0 .notACommand) ∧
      reads (.p1Payload 0 .notACommand) [0x40] (.p1PayNoctx 0x40) = true ∧ payloadPort discardingState = some 2 ∧
      discardingState.scan.discard[(2 : MaskPort)] = true ∧
      rxContext discardingState = some (.p1Payload 0 .notACommand) := by decide

/-- Port 0 owes a byte and its buffer holds `n` bytes. -/
def filled (n : Nat) (lc : Byte) (br : Nat) : State := withIn 0 (rec lc br (List.replicate n 0x40) 0) (scanning 0x01 0)

theorem witness_StatusByteStartsAMessage :
    (OwedTo 0 (filled 63 0x00 0) ∧ (filled 63 0x00 0).ia[(0 : MaskPort).port].length ≤ 64 ∧
      (Instr.p1PayStatus 0x90).wf = true ∧ lengthOf (filled 63 0x00 0).lenTable 0x90 = .fixed (2 + 1)) ∧
      OwedTo 0 (filled 64 0x00 0) ∧ (filled 64 0x00 0).ia[(0 : MaskPort).port].length = 64 := by decide

theorem witness_BytesWithoutContextPassThrough :
    OwedTo 0 (filled 63 0xF0 0) ∧ (filled 63 0xF0 0).ia[(0 : MaskPort).port].bytesRemaining = 0 ∧
      hasRunningStatus (lengthOf (filled 63 0xF0 0).lenTable (filled 63 0xF0 0).ia[(0 : MaskPort).port].lastCommand)
        = false ∧
      OwedTo 0 (filled 64 0xF0 0) ∧ (filled 64 0xF0 0).ia[(0 : MaskPort).port].length = 64 := by decide

theorem witness_DataByteCompletesAMessage :
    OwedTo 0 (filled 63 0x90 1) ∧ (filled 63 0x90 1).ia[(0 : MaskPort).port].bytesRemaining = 1 ∧
      OwedTo 0 (filled 1 0x90 2) ∧ (filled 1 0x90 2).ia[(0 : MaskPort).port].bytesRemaining = 2 ∧
      OwedTo 0 (filled 64 0x90 1) ∧ (filled 64 0x90 1).ia[(0 : MaskPort).port].length = 64 := by decide

theorem witness_RunningStatusRestoresTheStatusByte :
    (OwedTo 0 (filled 62 0x90 0) ∧ (filled 62 0x90 0).ia[(0 : MaskPort).port].length = 62 ∧
      lengthOf (filled 62 0x90 0).lenTable 0x90 = .fixed 3) ∧
    (OwedTo 0 (filled 0 0xC0 0) ∧ lengthOf (filled 0 0xC0 0).lenTable 0xC0 = .fixed 2) ∧
    (OwedTo 0 (filled 63 0x90 0) ∧ (filled 63 0x90 0).ia[(0 : MaskPort).port].length = 63) ∧
    (OwedTo 0 (filled 64 0x90 0) ∧ (filled 64 0x90 0).ia[(0 : MaskPort).port].length = 64) := by decide

theorem witness_P1ReceiveDeliversInPortOrder :
    p1.sessionOpen = true ∧ p1.variant = .p1 ∧ p1.rxPosted = true ∧ ([0x07] : List Byte).length < 2 ∧
      ¬ ([0x00, 0x00] : List Byte).length < 2 ∧ InputOk p1 := by decide

theorem witness_P1PortsAreIsolated :
    p1.sessionOpen = true ∧ p1.variant = .p1 ∧ p1.rxPosted = true ∧
      payloadFor 0 [0x00, 0x00, 0x01, 0xF8] = payloadFor 0 [0x07, 0x00, 0x03, 0xF8, 0x90, 0x02, 0x40] ∧
      payloadFor 0 [0x00, 0x00, 0x01, 0xF8] = [0xF8] ∧
      (∃ t, exec (.rxPacket [0x00, 0x00, 0x01, 0xF8]) p1 = .next t) ∧
      (∃ t, exec (.rxPacket [0x07, 0x00, 0x03, 0xF8, 0x90, 0x02, 0x40]) p1 = .next t) :=
  ⟨rfl, rfl, rfl, by decide, by decide, runs_next _ _ (by decide), runs_next _ _ (by decide)⟩

theorem witness_StepKeepsTheP1Tail :
    P1TailOk askingP1 ∧ (∃ t, step askingP1 = .next t) ∧ P1TailOk p1 ∧
      p1.sessionOpen = true ∧ p1.variant = .p1 ∧ p1.rxPosted = true ∧
      ∃ t, exec (.rxPacket [0x00, 0x00, 0x01, 0x90, 0x01, 0x40]) p1 = .next t :=
  ⟨by decide, askingP1_next, by decide, rfl, rfl, rfl, runs_next _ _ (by decide)⟩

/-- A mask byte is on its way to the P1 decoder. -/
def askingMask : State := asking .rxByte [0x81] p1

theorem witness_StepKeepsTheScanState : ScanOk askingMask ∧ ∃ t, step askingMask = .next t :=
  ⟨by decide, after_next _ (by decide)⟩

theorem witness_FillerIsTransparent : p2.sessionOpen = true ∧ p2.variant = .p2 := by decide

theorem witness_BodiesFormOneStream :
    p2.sessionOpen = true ∧ p2.variant = .p2 ∧ p2.rxPosted = true ∧
      (∃ t, exec (.rxPacket (0x00 :: ([0xF5, 0x00, 0x90, 0x40] ++ [0x7F]))) p2 = .next t) ∧
      ∃ u v, exec (.rxPacket (0x00 :: [0xF5, 0x00, 0x90, 0x40])) p2 = .next u ∧
        exec (.rxPacket (0x00 :: [0x7F])) u = .next v :=
  ⟨rfl, rfl, rfl, runs_next _ _ (by decide), _, _, rfl, rfl⟩

theorem witness_OnlyAMarkerLeavesWaitMarker :
    p2.sessionOpen = true ∧ p2.variant = .p2 ∧ p2.p2State = .waitMarker ∧ (Instr.p2WaitOther 0x90).wf = true := by decide

theorem witness_PortIndexSelectsOrResynchronizes :
    (selecting .portSelect none).sessionOpen = true ∧ (selecting .portSelect none).variant = .p2 ∧
      (selecting .portSelect none).p2State = .portSelect ∧ (0x05 : Byte) ≠ 0xFF ∧
      (selecting .portSelect none).nIn.val ≤ (0x05#8).toNat ∧ (0xFE : Byte) ≠ 0xFF ∧
      (4 : Port).val < (selecting .portSelect none).nIn.val := by decide

theorem witness_StatusByteInDataIsClassified :
    Selected .data 4 (selecting .data (some 4)) ∧ (selecting .data (some 4)).ia[(4 : Port)].length = 0 ∧
      (selecting .data (some 4)).lenTable.wf = true ∧ (Instr.p2DataStatus 0xF5).wf = true ∧
      (Instr.p2DataStatus 0xF0).wf = true ∧ (Instr.p2DataStatus 0xF8).wf = true ∧
      lengthOf (selecting .data (some 4)).lenTable 0xF8 = .fixed 1 ∧ (Instr.p2DataStatus 0x90).wf = true ∧
      lengthOf (selecting .data (some 4)).lenTable 0x90 = .fixed 3 := by decide

/-- In Data with an empty buffer and a last command. -/
def inDataWith (lc : Byte) : State := withIn 4 (rec lc 0 [] 0) (selecting .data (some 4))

theorem witness_DataByteInDataIsExpanded :
    [0xF5, 0xF0, 0x90, 0x00, 0xC0, 0xF8].all (fun n =>
      decide (Selected .data 4 (inDataWith (BitVec.ofNat 8 n))) &&
        decide ((inDataWith (BitVec.ofNat 8 n)).ia[(4 : Port)].length = 0) &&
        (inDataWith (BitVec.ofNat 8 n)).lenTable.wf &&
        commandLegal (inDataWith (BitVec.ofNat 8 n)).ia[(4 : Port)].lastCommand) = true := by decide

/-- In FixedLen, awaiting a message of three bytes. -/
def inFixed (bytes : List Byte) : State := withIn 4 (rec 0x90 3 bytes 0) (selecting .fixedLen (some 4))

theorem witness_FixedLenDeliversAtItsLength :
    Selected .fixedLen 4 (inFixed [0x90]) ∧ (inFixed [0x90]).ia[(4 : Port)].length < 64 ∧
      Selected .fixedLen 4 (inFixed [0x90, 0x40]) ∧ (inFixed [0x90, 0x40]).ia[(4 : Port)].length = 2 ∧
      (Instr.p2Fixed 0xF5).wf = true := by decide

/-- In SysEx with `n` bytes buffered. -/
def inSysex (n : Nat) : State := withIn 4 (rec 0xF0 0 (List.replicate n 0x01) 0) (selecting .sysEx (some 4))

theorem witness_SysexSpanEndsAtItsEndByte :
    Selected .sysEx 4 (inSysex 63) ∧ (inSysex 63).ia[(4 : Port)].length = 63 ∧ (Instr.p2SysexByte 0xF8).wf = true ∧
      Selected .sysEx 4 (inSysex 64) ∧ (inSysex 64).ia[(4 : Port)].length = 64 := by decide

theorem witness_StepKeepsTheP2Decoder :
    askingP2.lenTable.wf = true ∧ P2DecoderOk askingP2 ∧ ∃ t, step askingP2 = .next t :=
  ⟨by decide, by decide, askingP2_next⟩

theorem witness_ThreeByteMessageIsDelivered :
    p2.sessionOpen = true ∧ p2.variant = .p2 ∧ p2.rxPosted = true ∧ p2.p2State = .waitMarker ∧
      (4 : Port).val < p2.nIn.val ∧ lengthOf p2.lenTable 0x90 = .fixed 3 ∧ (0x90 : Byte) ≠ 0xF5 ∧
      (0xF5 : Byte) ≠ 0xFF := by decide

theorem witness_P2ReceiveEndsWithRearm : p2.sessionOpen = true ∧ p2.variant = .p2 ∧ p2.rxPosted = true := by decide

theorem witness_SysexSpanBecomesSendableAtItsEnd : Pushable 4 p2 := by decide

theorem witness_StatusByteOpensASpan :
    Pushable 4 p2 ∧ (Instr.fifoStatus 4 0x90).wf = true ∧ lengthOf p2.lenTable 0x90 = .fixed 3 ∧
      (Instr.fifoStatus 4 0xF8).wf = true ∧ lengthOf p2.lenTable 0xF8 = .fixed 1 := by decide

/-- Port 4 has a complete message queued and a span of two data bytes. -/
def spanning (remaining : Nat) : State := withFifo 4 (que [0x90, 0x40, 0x7F] 3 0x00 2 remaining) p2

theorem witness_DataByteIsCountedInItsSpan :
    Pushable 4 (spanning 0) ∧ 0 < (spanning 0).fifo[(4 : Port)].commandSpanLength ∧ Pushable 4 (spanning 1) ∧
      0 < (spanning 1).fifo[(4 : Port)].commandSpanLength ∧ Pushable 4 p2 ∧
      p2.fifo[(4 : Port)].commandSpanLength = 0 := by decide

/-- Port 4 is full with nothing sendable. -/
def wedged : State := withFifo 4 (que (List.replicate 64 0x40) 0 0x00 0 0) p2

theorem witness_FullFifoDropsTheRestOfThePush :
    wedged.fifo[(4 : Port)].length = 64 ∧ wedged.sessionOpen = true ∧ wedged.variant = .p2 ∧
      (4 : Port).val < wedged.nOut.val ∧
      reads (.fifoPush 4 wedged.fifo[(4 : Port)].commandSpanLength) [0xF7] (.fifoSysexEnd 4) = true := by decide

theorem witness_PushKeepsTheSendableBytes :
    (spanning 0).fifo[(4 : Port)].ok = true ∧ (spanning 0).fifo[(4 : Port)].sendable = [0x90, 0x40, 0x7F] := by decide

theorem witness_StepKeepsTheFifoInvariant : FifoOk askingP2 ∧ ∃ t, step askingP2 = .next t :=
  ⟨by decide, askingP2_next⟩

theorem witness_OnlyResetClearsAWedgedFifo :
    Wedged 4 wedged ∧ (∀ cfg, Instr.fifoSysexEnd 4 ≠ .reset cfg) ∧ ∃ t, exec (.fifoSysexEnd 4) wedged = .next t :=
  ⟨by decide, fun _ h => (by cases h), runs_next _ _ (by decide)⟩

/-- V-P2E-10. -/
theorem witness_VisitOrderIsCyclic : visitOrder { p2 with lastOutputPort := some 3 } = [3, 4, 0, 1, 2] := by decide

/-- Port 1 has `43 7F` sendable and a known status, in the middle of an invocation. -/
def packing1 (out : List Byte) (k : Nat) (last : Option Port) : State :=
  withFifo 1 (que [0x43, 0x7F] 2 0x90 2 0) (packing out k 0 last)

theorem witness_SwitchMarkerNamesThePort :
    (Packing (packing1 [] 9 (some 0)) ∧ hasSendable 1 (packing1 [] 9 (some 0)) = true ∧
      (packing1 [] 9 (some 0)).lastOutputPort ≠ some 1 ∧ (packing1 [] 9 (some 0)).enc.k < 10) ∧
    (packing1 [] 9 (some 0)).enc.due = .slot ∧
    (Packing (owing (.index 1) (packing1 [0xF5] 10 (some 0))) ∧
      hasSendable 1 (owing (.index 1) (packing1 [0xF5] 10 (some 0))) = true ∧
      (owing (.index 1) (packing1 [0xF5] 10 (some 0))).lastOutputPort ≠ some 1 ∧
      (owing (.index 1) (packing1 [0xF5] 10 (some 0))).enc.due = .index 1 ∧
      (owing (.index 1) (packing1 [0xF5] 10 (some 0))).enc.k ≤ 10) := by decide

/-- The marker of port 1 has just been emitted, and `k` slots of the group are filled. -/
def primed (k : Nat) : State := owing .priming (packing1 [0xF5, 0x01] k (some 1))

theorem witness_PrimingByteRestoresTheStatus :
    ([2, 11].all (fun k => decide (
      Packing (primed k) ∧ hasSendable 1 (primed k) = true ∧ (primed k).lastOutputPort = some 1 ∧
        (primed k).enc.due = .priming ∧ (primed k).enc.k < 12 ∧ (primed k).fifo[(1 : Port)].peek.getLsbD 7 = false ∧
        (primed k).fifo[(1 : Port)].lastCommand ≠ 0x00)) = true) ∧
    ([0, 9].all (fun k => decide (
      Packing (packing1 [] k (some 0)) ∧ hasSendable 1 (packing1 [] k (some 0)) = true ∧
        (packing1 [] k (some 0)).lastOutputPort ≠ some 1 ∧ (packing1 [] k (some 0)).enc.due = .slot ∧
        (packing1 [] k (some 0)).enc.k < 10 ∧ (packing1 [] k (some 0)).fifo[(1 : Port)].peek.getLsbD 7 = false ∧
        (packing1 [] k (some 0)).fifo[(1 : Port)].lastCommand ≠ 0x00)) = true) ∧
    (packing1 [0xF5, 0x01] 2 (some 1)).enc.due ≠ .priming := by decide

theorem witness_FifoByteIsSentInOrder :
    Packing (packing1 [] 11 (some 1)) ∧ hasSendable 1 (packing1 [] 11 (some 1)) = true ∧
      (packing1 [] 11 (some 1)).fifo[(1 : Port)].ok = true ∧ (packing1 [] 11 (some 1)).lastOutputPort = some 1 ∧
      (packing1 [] 11 (some 1)).enc.k < 12 ∧
      (packing1 [] 11 (some 1)).enc.due = .slot ∧
      (packing1 [] 11 (some 1)).fifo[(1 : Port)].queued = 0x43 :: [0x7F] := by decide

/-- Right after a marker, a status byte is next. -/
theorem witness_FifoByteIsSentInOrder_afterMarker :
    Packing (owing .priming (withFifo 1 (que [0x90] 1 0x80 0 0) (packing [] 2 0 (some 1)))) ∧
      (owing .priming (withFifo 1 (que [0x90] 1 0x80 0 0) (packing [] 2 0 (some 1)))).fifo[(1 : Port)].queued = [0x90] ∧
      (0x90#8).getLsbD 7 = true := by decide

theorem witness_PaddingClosesTheGroup :
    (Packing (packing1 [] 10 (some 0)) ∧ (packing1 [] 10 (some 0)).enc.due = .slot ∧
      10 ≤ (packing1 [] 10 (some 0)).enc.k ∧
      hasSendable 1 (packing1 [] 10 (some 0)) = true ∧ (packing1 [] 10 (some 0)).lastOutputPort ≠ some 1) ∧
    (Packing (packing [] 1 3 none) ∧ (packing [] 1 3 none).enc.due = .slot ∧ 0 < (packing [] 1 3 none).enc.k ∧
      (∀ q, hasSendable q (packing [] 1 3 none) = false)) ∧
    (Packing (packing [] 12 0 none) ∧ (packing [] 12 0 none).enc.k = 12) := by decide

theorem encodes_kick (s : State) (h : s.sessionOpen = true) (h' : answersLegal s = true) (ha : s.active = false) :
    Encodes .txKick s := ⟨h, h', .inl ⟨rfl, ha⟩⟩

theorem encodes_done (s : State) (h : s.sessionOpen = true) (h' : answersLegal s = true) (ha : s.active = true) :
    Encodes (.txDone false) s := ⟨h, h', .inr ⟨false, rfl, ha⟩⟩

/-- The producers of ports 0 and 1 have a message each. -/
def busy (s : State) : State := withEnv (answers [[0x90, 0x40, 0x7F], [0xC0, 0x05]] true) s

theorem witness_P2PacketIsWholeGroups :
    (Encodes .txKick (busy p2) ∧ (busy p2).variant = .p2 ∧ FifoOk (busy p2)) ∧
      (Encodes .txKick p2 ∧ p2.variant = .p2 ∧ FifoOk p2) ∧
      Encodes (.txDone false) (busy { p2 with active := true }) :=
  ⟨⟨encodes_kick _ rfl (by decide) rfl, rfl, by decide⟩, ⟨encodes_kick _ rfl (by decide) rfl, rfl, by decide⟩,
    encodes_done _ rfl (by decide) rfl⟩

/-- The last output port alone has sendable bytes. -/
def onePort (bytes : List Byte) : State :=
  withFifo 0 (que bytes bytes.length 0x90 0 0)
    { p2 with env := ⟨Vector.replicate 9 [], true⟩, lastOutputPort := some 0 }

theorem witness_PacketSwitchesPortsOnlyWhenNeeded_onePort :
    [1, 12].all (fun n => decide (
      (onePort (List.replicate n 0x40)).sessionOpen = true ∧ (onePort (List.replicate n 0x40)).variant = .p2 ∧
        (onePort (List.replicate n 0x40)).active = false ∧
        (onePort (List.replicate n 0x40)).env = ⟨Vector.replicate 9 [], true⟩ ∧
        (onePort (List.replicate n 0x40)).lastOutputPort = some 0 ∧
        (0 : Port).val < (onePort (List.replicate n 0x40)).nOut.val ∧
        (onePort (List.replicate n 0x40)).fifo[(0 : Port)].ok = true ∧
        (onePort (List.replicate n 0x40)).fifo[(0 : Port)].sendableLength = n ∧
        ∀ q' : Port, q' ≠ 0 → (onePort (List.replicate n 0x40)).fifo[q'].sendableLength = 0)) = true := by decide

/-- The last output port 0 has `n` sendable bytes, and port 4, whose last status is 90, has `m`. -/
def twoPorts (n m : Nat) : State := withFifo 4 (que (List.replicate m 0x43) m 0x90 2 0) (onePort (List.replicate n 0x40))

/-- No byte, and bytes up to slots 9, 10 and 11, before the switch, and packets of one group and of four full ones. -/
theorem witness_PacketSwitchesPortsOnlyWhenNeeded_twoPorts :
    ([(0, 1), (9, 1), (10, 1), (11, 33), (9, 36), (3, 42)].all (fun x => decide (
      (twoPorts x.1 x.2).variant = .p2 ∧ (twoPorts x.1 x.2).env = ⟨Vector.replicate 9 [], true⟩ ∧
        (0 : Port).val < (twoPorts x.1 x.2).nOut.val ∧ (4 : Port).val < (twoPorts x.1 x.2).nOut.val ∧
        (twoPorts x.1 x.2).fifo[(0 : Port)].ok = true ∧ (twoPorts x.1 x.2).fifo[(4 : Port)].ok = true ∧
        (twoPorts x.1 x.2).lastOutputPort = some 0 ∧ 0 < (twoPorts x.1 x.2).fifo[(4 : Port)].sendableLength ∧
        (∀ q' : Port, q' ≠ 0 → q' ≠ 4 → (twoPorts x.1 x.2).fifo[q'].sendableLength = 0) ∧
        (switchedSlots (twoPorts x.1 x.2).fifo[(0 : Port)].sendable 4 0x90
          (twoPorts x.1 x.2).fifo[(4 : Port)].sendable).length ≤ 48)) = true) ∧
    Encodes .txKick (twoPorts 9 36) ∧ Encodes (.txDone false) { twoPorts 9 36 with active := true } :=
  ⟨by decide, encodes_kick _ rfl (by decide) rfl, encodes_done _ rfl (by decide) rfl⟩

/-- The other form of the premise: no port has been selected for output yet. -/
theorem witness_PacketSwitchesPortsOnlyWhenNeeded_first :
    { twoPorts 0 2 with lastOutputPort := none }.lastOutputPort ≠ some 4 ∧
      { twoPorts 0 2 with lastOutputPort := none }.fifo[(0 : Port)].sendableLength = 0 ∧
      Encodes .txKick { twoPorts 0 2 with lastOutputPort := none } :=
  ⟨by decide, by decide, encodes_kick _ rfl (by decide) rfl⟩

theorem witness_NoQueuedByteIsLostOrReordered :
    Encodes .txKick (busy p2) ∧ (busy p2).variant = .p2 ∧ (0 : Port).val < (busy p2).nOut.val ∧ FifoOk (busy p2) ∧
      ∃ t, exec .txKick (busy p2) = .next t :=
  ⟨encodes_kick _ rfl (by decide) rfl, rfl, by decide, by decide, runs_next _ _ (by decide)⟩

theorem witness_NothingSendableSubmitsNothing :
    p2.sessionOpen = true ∧ p2.variant = .p2 ∧ p2.active = false ∧ p2.env = ⟨Vector.replicate 9 [], false⟩ ∧
      ∀ q : Port, q.val < p2.nOut.val → p2.fifo[q].sendableLength = 0 := by decide

/-- A P1 encoder that has appended `n` bytes of the end marker. -/
def ending (n : Nat) : State :=
  setEnc { (encoding1 [[0x90]] [0x00, 0x00, 0x01, 0x90] 1 0x00).enc with ends := n } p1

theorem witness_HeaderAndEndMarkerFrameThePacket_ends :
    [0, 1, 2].all (fun n => decide (
      P1Encoding (ending n) ∧ 2 < (ending n).enc.out.length ∧ (ending n).enc.pending = 0x00 ∧ (ending n).enc.ends = n ∧
        ∀ m : MaskPort, (ending n).enc.pulled[m.port].length ≤ (ending n).enc.j)) = true := by decide

theorem witness_HeaderAndEndMarkerFrameThePacket :
    (P1Encoding p1 ∧ p1.enc.out = []) ∧
    (P1Encoding (encoding1 [] [0x07] 0 0x00) ∧ (encoding1 [] [0x07] 0 0x00).enc.out = [0x07]) ∧
    (P1Encoding (encoding1 [[0x90]] [0x00, 0x00, 0x01, 0x90] 1 0x00) ∧
      2 < (encoding1 [[0x90]] [0x00, 0x00, 0x01, 0x90] 1 0x00).enc.out.length ∧
      (∀ m : MaskPort, (encoding1 [[0x90]] [0x00, 0x00, 0x01, 0x90] 1 0x00).enc.pulled[m.port].length ≤ 1)) ∧
    (P1Encoding (encoding1 [[1, 2, 3]] [0x00, 0x00, 0x01] 3 0x00) ∧
      3 ≤ (encoding1 [[1, 2, 3]] [0x00, 0x00, 0x01] 3 0x00).enc.j) := by decide

theorem witness_GroupCarriesOneBytePerMaskBit :
    (P1Encoding (encoding1 [[0x90], [], [0xC0, 0x05]] [0x00, 0x00] 0 0x00) ∧
      ∀ m : MaskPort, (0x05#8).getLsbD m.val =
        decide (0 < (encoding1 [[0x90], [], [0xC0, 0x05]] [0x00, 0x00] 0 0x00).enc.pulled[m.port].length)) ∧
    (P1Encoding (encoding1 [[0x90], [], [0xC0, 0x05]] [0x04] 1 0x04) ∧
      (encoding1 [[0x90], [], [0xC0, 0x05]] [0x04] 1 0x04).enc.pending.getLsbD (2 : MaskPort).val = true ∧
      (∀ m' : MaskPort, m' < 2 →
        (encoding1 [[0x90], [], [0xC0, 0x05]] [0x04] 1 0x04).enc.pending.getLsbD m'.val = false) ∧
      (encoding1 [[0x90], [], [0xC0, 0x05]] [0x04] 1 0x04).enc.pulled[(2 : MaskPort).port].getD 1 0 = 0x05) := by decide

theorem witness_P1PacketCarriesEveryPulledByte :
    (Encodes .txKick (busy p1) ∧ (busy p1).variant = .p1) ∧ (Encodes .txKick p1 ∧ p1.variant = .p1) ∧
      (∃ q ∈ pulledPorts (busy p1), (busy p1).env.pull[q] ≠ []) ∧ ∀ q ∈ pulledPorts p1, p1.env.pull[q] = [] :=
  ⟨⟨encodes_kick _ rfl (by decide) rfl, rfl⟩, ⟨encodes_kick _ rfl (by decide) rfl, rfl⟩, by decide, by decide⟩

theorem witness_CompletionRetriesAtOnce :
    p1.sessionOpen = true ∧ p1.active = false ∧ { busy p1 with active := true }.active = true ∧
      answersLegal { busy p1 with active := true } = true := by decide

theorem witness_ActiveMeansAnAcceptedSubmission :
    Encodes .txKick (busy p1) ∧ ∃ t, exec .txKick (busy p1) = .next t :=
  ⟨encodes_kick _ rfl (by decide) rfl, runs_next _ _ (by decide)⟩

theorem witness_StepKeepsTheInputInvariant : InputOk askingP1 ∧ ∃ t, step askingP1 = .next t :=
  ⟨by decide, askingP1_next⟩

theorem witness_StepKeepsUnusedState :
    (UnusedOk askingP1 ∧ ∃ t, step askingP1 = .next t) ∧ UnusedOk askingP2 ∧ ∃ t, step askingP2 = .next t :=
  ⟨⟨by decide, askingP1_next⟩, by decide, askingP2_next⟩

theorem witness_StepKeepsOneReceivePosted : ReceivePosted askingP1 ∧ ∃ t, step askingP1 = .next t :=
  ⟨by decide, askingP1_next⟩

theorem witness_EventsAreOnlyAdded : ∃ t, step askingP1 = .next t := askingP1_next

end Sys2Proof.Tests
end

section
/-! PROOFS. What one instruction can do, as a chain of small actions: the vocabulary. Every invariant of 10_state.md is
then a statement about one action (`Act`), and no proof walks through the instructions again. -/

namespace Sys2Proof.Machine

/-! ### Actions on one record -/

/-- One write to an input record. `W` says that the bytes that run were decoded (30_encoding.md R99): only then is a
written command known to be legal, because `exec` takes any operand. -/
inductive RecAct (W : Prop) : InRec → InRec → Prop
  | push (r : InRec) (b : Byte) (h : r.length ≠ cap) : RecAct W r (r.push b)
  | command (r : InRec) (b : Byte) (h : W → commandLegal b = true) : RecAct W r (r.withCommand b)
  | remaining (r : InRec) (n : Nat) : RecAct W r (r.withRemaining n)
  | mark (r : InRec) : RecAct W r r.markDeliverable
  | clear (r : InRec) : RecAct W r r.clear

/-- A chain of writes to an input record. -/
abbrev RecActs (W : Prop) : InRec → InRec → Prop := Relation.ReflTransGen (RecAct W)

/-- The six cases of PushClassify (44_p2_fifo.md R192 to R197). -/
inductive PushCase : (OutFifo → OutFifo) → Prop
  | sysex : PushCase OutFifo.pushedSysex
  | sysexEnd : PushCase OutFifo.pushedSysexEnd
  | status (n : Nat) : PushCase (OutFifo.pushedStatus n)
  | notACommand : PushCase OutFifo.pushedNotACommand
  | dataSpan : PushCase OutFifo.pushedDataSpan
  | dataNospan : PushCase OutFifo.pushedDataNospan

/-- One write to an output FIFO: a pushed byte (R190) or a sent one (45_p2_encoder.md R214). -/
inductive FifoAct : OutFifo → OutFifo → Prop
  | push (f : OutFifo) (b : Byte) (classify : OutFifo → OutFifo) (hc : PushCase classify) (h : f.length ≠ cap) :
      FifoAct f (classify (f.write b))
  | send (f : OutFifo) (h : 0 < f.sendableLength) : FifoAct f f.sent

/-! ### Actions on the state -/

/-- The fields that RESET alone writes (10_state.md R20) and the length table (40_length_table.md R126) are kept. -/
structure SameConfig (s t : State) : Prop where
  sessionOpen : t.sessionOpen = s.sessionOpen
  variant : t.variant = s.variant
  nIn : t.nIn = s.nIn
  nOut : t.nOut = s.nOut
  lenTable : t.lenTable = s.lenTable

/-- Every field that an invariant of 10_state.md reads is kept: only the transient cursors, the flags `active` and
`rxPosted`, and fields of the model's own are written. -/
structure Aside (s t : State) : Prop extends SameConfig s t where
  ia : t.ia = s.ia
  scan : t.scan = s.scan
  p2State : t.p2State = s.p2State
  selectedPort : t.selectedPort = s.selectedPort
  fifo : t.fifo = s.fifo
  seq : t.seq = s.seq
  lastOutputPort : t.lastOutputPort = s.lastOutputPort

/-- What one byte row of the P2 decoder does, filler apart (43_p2_decoder.md R167 to R175). The rows of Data, FixedLen
and SysEx run on the selected port. -/
inductive P2Row (W : Prop) : State → State → Prop
  | marker (s : State) : P2Row W s (p2WaitMarker s)
  | selectValid (s : State) (p : Port) (h : p.val < s.nIn.val) : P2Row W s (p2SelectValid p s)
  | selectInvalid (s : State) (b : Byte) : P2Row W s (p2SelectInvalid b s)
  | dataStatus (s : State) (p : Port) (b : Byte) (hst : s.p2State = .data) (hp : s.selectedPort = some p)
      (hb : W → commandLegal b = true) : P2Row W s (p2DataStatus b p s)
  | dataData (s : State) (p : Port) (b : Byte) (hst : s.p2State = .data) (hp : s.selectedPort = some p) :
      P2Row W s (p2DataData b p s)
  | fixedByte (s : State) (p : Port) (b : Byte) (hst : s.p2State = .fixedLen) (hp : s.selectedPort = some p) :
      P2Row W s (p2FixedByte b p s)
  | sysexEnd (s : State) (p : Port) (hst : s.p2State = .sysEx) (hp : s.selectedPort = some p) :
      P2Row W s (p2SysexEnd p s)
  | sysexByte (s : State) (p : Port) (b : Byte) (hst : s.p2State = .sysEx) (hp : s.selectedPort = some p) :
      P2Row W s (p2SysexByte b p s)

/-- One write of a P2 decoder row. Within a row the decoder's own state may be inconsistent (43_p2_decoder.md R178 holds
of whole rows), so these writes are kept apart from the rows. -/
inductive P2Act (W : Prop) : State → State → Prop
  | report (s : State) (e : Event) : P2Act W s (emit e s)
  | select (s : State) (p : Port) (h : p.val < s.nIn.val) : P2Act W s (p2SelectValid p s)
  | move (s : State) (st : P2State) : P2Act W s (setP2 st s.selectedPort s)
  | deselect (s : State) (st : P2State) : P2Act W s (setP2 st none s)
  | record (s : State) (p : Port) (f : InRec → InRec) (hp : s.selectedPort = some p)
      (h : RecActs W s.ia[p] (f s.ia[p])) : P2Act W s (modIn p f s)

/-- A chain of writes of P2 decoder rows. -/
abbrev P2Acts (W : Prop) : State → State → Prop := Relation.ReflTransGen (P2Act W)

/-- The session configuration of a state (10_state.md R20). -/
def configOf (s : State) : SessionConfig := ⟨s.variant, s.nIn, s.nOut⟩

/-- One action of a session with configuration `c`. -/
inductive Act (c : SessionConfig) (W : Prop) : State → State → Prop
  | aside (s t : State) (h : Aside s t) : Act c W s t
  | scan (s : State) (v : ScanState) (hc : c.variant = .p1) : Act c W s (setScan v s)
  | input (s : State) (i : MaskPort) (f : InRec → InRec) (hc : c.variant = .p1)
      (h : RecActs W s.ia[i.port] (f s.ia[i.port])) : Act c W s (modIn i.port f s)
  | deliver (s : State) (p : Port) (hc : c.variant = .p1) (h : 0 < s.ia[p].deliverableLength) :
      Act c W s (modIn p (InRec.shiftOut s.ia[p].deliverableLength) s)
  | p2Row (s t : State) (hc : c.variant = .p2) (h : P2Row W s t) : Act c W s t
  | fifo (s : State) (q : Port) (f : OutFifo → OutFifo) (hc : c.variant = .p2) (hq : q.val < c.nOut.val)
      (h : FifoAct s.fifo[q] (f s.fifo[q])) : Act c W s (modFifo q f s)
  | lastOutputPort (s : State) (q : Port) (hc : c.variant = .p2) : Act c W s (setLastOutputPort q s)
  | seq (s : State) (v : Byte) (hc : c.variant = .p1) : Act c W s (setSeq v s)

/-- A chain of actions. -/
abbrev Acts (c : SessionConfig) (W : Prop) : State → State → Prop := Relation.ReflTransGen (Act c W)

/-- What every link keeps, the chain keeps. -/
theorem chain_keeps {α : Type} {R : α → α → Prop} (P : α → Prop) (hstep : ∀ x y, R x y → P x → P y) {x y : α}
    (h : Relation.ReflTransGen R x y) (hx : P x) : P y := by
  induction h with
  | refl => exact hx
  | tail _ hr ih => exact hstep _ _ hr ih

variable {c : SessionConfig} {W : Prop} {s t u : State}

theorem Aside.of_eq
    (h : t = { s with
      cursor := t.cursor, enc := t.enc, active := t.active, rxPosted := t.rxPosted, events := t.events
      verdict := t.verdict, lenAnswer := t.lenAnswer, env := t.env, inbox := t.inbox }) : Aside s t where
  toSameConfig := by rw [h]; constructor <;> rfl
  ia := by rw [h]
  scan := by rw [h]
  p2State := by rw [h]
  selectedPort := by rw [h]
  fifo := by rw [h]
  seq := by rw [h]
  lastOutputPort := by rw [h]

theorem Aside.acts (h : Aside s t) : Acts c W s t := .single (.aside s t h)

/-! ### The configuration along a chain -/

theorem SameConfig.refl (s : State) : SameConfig s s := by constructor <;> rfl

theorem SameConfig.trans (h : SameConfig s t) (h' : SameConfig t u) : SameConfig s u where
  sessionOpen := h'.sessionOpen.trans h.sessionOpen
  variant := h'.variant.trans h.variant
  nIn := h'.nIn.trans h.nIn
  nOut := h'.nOut.trans h.nOut
  lenTable := h'.lenTable.trans h.lenTable

theorem SameConfig.configOf (h : SameConfig s t) : configOf t = configOf s := by
  simp only [Machine.configOf, h.variant, h.nIn, h.nOut]

theorem P2Act.sameConfig (h : P2Act W s t) : SameConfig s t := by
  cases h <;> constructor <;> rfl

theorem P2Acts.sameConfig (h : P2Acts W s t) : SameConfig s t :=
  chain_keeps (SameConfig s) (fun _ _ h' hs => hs.trans h'.sameConfig) h (.refl s)

/-! ### The writes of the P2 decoder rows -/

theorem P2Acts.move (s : State) (st : P2State) : P2Acts W s (setP2 st s.selectedPort s) := .single (.move s st)

theorem P2Acts.deselect (s : State) (st : P2State) : P2Acts W s (setP2 st none s) := .single (.deselect s st)

theorem P2Acts.record (s : State) (p : Port) (f : InRec → InRec) (hp : s.selectedPort = some p)
    (h : RecAct W s.ia[p] (f s.ia[p])) : P2Acts W s (modIn p f s) :=
  .single (.record s p f hp (.single h))

theorem p2Overflow_acts (p : Port) (s : State) (hp : s.selectedPort = some p) : P2Acts W s (p2Overflow p s) :=
  calc
    P2Acts W s (raiseCondition .rxOverflow (portByte p) s) := .single (.report s _)
    P2Acts W _ (modIn p InRec.resetRecord _) := .single (.record _ p _ hp (.tail (.single (.clear _)) (.remaining _ 0)))
    P2Acts W _ (p2Overflow p s) := .deselect _ _

theorem p2Complete_acts (p : Port) (s : State) (hp : s.selectedPort = some p) : P2Acts W s (p2Complete p s) :=
  calc
    P2Acts W s (emit (.deliver p s.ia[p].bytes) s) := .single (.report s _)
    P2Acts W _ (modIn p InRec.clear _) := .record _ p _ hp (.clear _)
    P2Acts W _ (p2Complete p s) := .move _ .data

theorem p2CompleteIfFull_acts (p : Port) (s : State) (hp : s.selectedPort = some p) :
    P2Acts W s (p2CompleteIfFull p s) := by
  unfold p2CompleteIfFull
  split
  · exact p2Complete_acts p s hp
  · exact .refl

theorem p2EnterFixed_acts (p : Port) (total : Nat) (s : State) (hp : s.selectedPort = some p) :
    P2Acts W s (p2EnterFixed p total s) :=
  calc
    P2Acts W s (modIn p (InRec.withRemaining total) s) := .record s p _ hp (.remaining _ total)
    P2Acts W _ (setP2 .fixedLen s.selectedPort _) := .move _ .fixedLen
    P2Acts W _ (p2EnterFixed p total s) := p2CompleteIfFull_acts p _ hp

theorem p2Classify_acts (p : Port) (s : State) (hp : s.selectedPort = some p) : P2Acts W s (p2Classify p s) := by
  unfold p2Classify
  split
  · exact .deselect s .portSelect
  · split
    · exact .move s .sysEx
    · exact p2EnterFixed_acts p _ s hp
    · exact p2EnterFixed_acts p implied3 s hp

/-- A row that appends a byte to the selected record and goes on, or recovers from the overflow. -/
theorem append_p2Acts (p : Port) (b : Byte) (s : State) (hp : s.selectedPort = some p) (next : State → State)
    (hnext : ∀ t : State, t.selectedPort = some p → P2Acts W t (next t)) :
    P2Acts W s (match append p b s with
      | none => p2Overflow p s
      | some t => next t) := by
  rcases append_eq p b s with ⟨_, h⟩ | ⟨hl, h⟩
  · rw [h]; exact p2Overflow_acts p s hp
  · rw [h]; exact (P2Acts.record s p _ hp (.push _ b hl)).trans (hnext _ hp)

/-- A row is the chain of its writes. -/
theorem P2Row.acts (h : P2Row W s t) : P2Acts W s t := by
  cases h with
  | marker => exact .deselect s .portSelect
  | selectValid p hp => exact .single (.select s p hp)
  | selectInvalid b => exact (Relation.ReflTransGen.single (.report s _)).tail (.deselect _ .waitMarker)
  | dataStatus p b _ hp hb =>
    exact (P2Acts.record s p _ hp (.command _ b hb)).trans
      (append_p2Acts p b (modIn p (InRec.withCommand b) s) hp (p2Classify p) fun t => p2Classify_acts p t)
  | dataData p b _ hp =>
    exact append_p2Acts p _ s hp _ fun t ht => append_p2Acts p b t ht (p2Classify p) fun u => p2Classify_acts p u
  | fixedByte p b _ hp => exact append_p2Acts p b s hp (p2CompleteIfFull p) fun t => p2CompleteIfFull_acts p t
  | sysexEnd p _ hp => exact append_p2Acts p Machine.sysexEnd s hp (p2Complete p) fun t => p2Complete_acts p t
  | sysexByte p b _ hp => exact append_p2Acts p b s hp id fun _ _ => .refl

theorem P2Row.sameConfig (h : P2Row W s t) : SameConfig s t := h.acts.sameConfig

theorem Act.sameConfig (h : Act c W s t) : SameConfig s t := by
  cases h with
  | aside _ h => exact h.toSameConfig
  | p2Row _ _ h => exact h.sameConfig
  | scan | input | deliver | fifo | lastOutputPort | seq => constructor <;> rfl

theorem Acts.sameConfig (h : Acts c W s t) : SameConfig s t :=
  chain_keeps (SameConfig s) (fun _ _ h' hs => hs.trans h'.sameConfig) h (.refl s)

/-- A property that every action in a session's own configuration keeps holds after the session's chains. -/
theorem Acts.keeps (P : State → Prop) (hact : ∀ s t, Act (configOf s) W s t → P s → P t)
    (h : Acts (configOf s) W s t) (hs : P s) : P t := by
  refine (chain_keeps (fun x => SameConfig s x ∧ P x) ?_ h ⟨.refl s, hs⟩).2
  rintro x y hxy ⟨hc, hx⟩
  exact ⟨hc.trans hxy.sameConfig, hact x y (hc.configOf ▸ hxy) hx⟩

end Sys2Proof.Machine
end

section
/-! PROOFS. Every instruction but RESET is a chain of actions (`exec_acts`), and so a property that RESET and every
action keep holds after every step (`step_keeps`). -/

namespace Sys2Proof.Machine

variable {c : SessionConfig} {W : Prop} {s t : State}

/-! ### Writes that no invariant reads -/

theorem aside_emit (e : Event) (s : State) : Aside s (emit e s) := .of_eq rfl
theorem aside_setCursor (n : Nat) (s : State) : Aside s (setCursor n s) := .of_eq rfl
theorem aside_setEnc (e : EncState) (s : State) : Aside s (setEnc e s) := .of_eq rfl
theorem aside_setActive (v : Bool) (s : State) : Aside s (setActive v s) := .of_eq rfl
theorem aside_setRxPosted (v : Bool) (s : State) : Aside s (setRxPosted v s) := .of_eq rfl
theorem aside_accept (s : State) : Aside s (accept s) := .of_eq rfl
theorem aside_refuse (why : RefuseReason) (s : State) : Aside s (refuse why s) := .of_eq rfl
theorem aside_queryLength (b : Byte) (s : State) : Aside s (queryLength b s) := .of_eq rfl
theorem aside_takeRequest (r : Request) (rest : List Request) (s : State) : Aside s (takeRequest r rest s) :=
  .of_eq rfl
theorem aside_rearm (s : State) : Aside s (rearm s) := .of_eq rfl
theorem aside_emitSlot (b : Byte) (s : State) : Aside s (emitSlot b s) := by rw [emitSlot_eq]; exact .of_eq rfl
theorem aside_submit (arg : Byte) (fs : List (Nat × Nat)) (s : State) : Aside s (submit arg fs s) := by
  rw [submit_eq]; exact .of_eq rfl

/-! ### The Protocol 1 decoder -/

theorem Acts.scan (s : State) (v : ScanState) (hc : c.variant = .p1) : Acts c W s (setScan v s) :=
  .single (.scan s v hc)

theorem Acts.input (s : State) (i : MaskPort) (f : InRec → InRec) (hc : c.variant = .p1)
    (h : RecActs W s.ia[i.port] (f s.ia[i.port])) : Acts c W s (modIn i.port f s) := .single (.input s i f hc h)

theorem p1Overflow_acts (hc : c.variant = .p1) (i : MaskPort) (s : State) : Acts c W s (p1Overflow i s) :=
  calc
    Acts c W s (raiseCondition .rxOverflow (portByte i.port) s) := (aside_emit _ s).acts
    Acts c W _ (modIn i.port InRec.resetRecord _) := .input _ i _ hc (.tail (.single (.clear _)) (.remaining _ 0))
    Acts c W _ (p1Overflow i s) := .scan _ _ hc

/-- A case of AppendAndClassify that appends a byte and goes on, or recovers from the overflow. -/
theorem append_acts (hc : c.variant = .p1) (i : MaskPort) (b : Byte) (s : State) (next : State → State)
    (hnext : ∀ t : State, Acts c W t (next t)) :
    Acts c W s (match append i.port b s with
      | none => p1Overflow i s
      | some t => next t) := by
  rcases append_eq i.port b s with ⟨_, h⟩ | ⟨hl, h⟩
  · rw [h]; exact p1Overflow_acts hc i s
  · rw [h]; exact (Acts.input s i _ hc (.single (.push _ b hl))).trans (hnext _)

theorem appendDeliverable_acts (hc : c.variant = .p1) (i : MaskPort) (b : Byte) (s : State) :
    Acts c W s (appendDeliverable i b s) :=
  append_acts hc i b s (modIn i.port InRec.markDeliverable) fun t => .input t i _ hc (.single (.mark _))

theorem InRec.countDown_acts (r : InRec) : RecActs W r r.countDown := by
  unfold InRec.countDown
  split
  · exact .tail (.single (.remaining r 0)) (.mark _)
  · exact .single (.remaining r _)

theorem appendCounted_acts (hc : c.variant = .p1) (i : MaskPort) (b : Byte) (s : State) :
    Acts c W s (appendCounted i b s) :=
  append_acts hc i b s (modIn i.port InRec.countDown) fun t => .input t i _ hc (InRec.countDown_acts _)

/-- A status byte's two register writes. -/
theorem withCommand_withRemaining_acts (r : InRec) (b : Byte) (n : Nat) (hb : W → commandLegal b = true) :
    RecActs W r ((r.withCommand b).withRemaining n) :=
  .tail (.single (.command r b hb)) (.remaining _ n)

theorem p1Status_acts (hc : c.variant = .p1) (b : Byte) (hb : W → commandLegal b = true) (i : MaskPort) (s : State) :
    Acts c W s (p1Status b i s) :=
  (Acts.input s i _ hc (withCommand_withRemaining_acts _ b _ hb)).trans (appendDeliverable_acts hc i b _)

theorem p1Sysex_acts (hc : c.variant = .p1) (i : MaskPort) (s : State) : Acts c W s (p1Sysex i s) :=
  (Acts.input s i _ hc (withCommand_withRemaining_acts _ sysexBegin 0 fun _ => by decide)).trans
    (appendDeliverable_acts hc i sysexBegin _)

theorem p1RunningStatus_acts (hc : c.variant = .p1) (b : Byte) (i : MaskPort) (s : State) :
    Acts c W s (p1RunningStatus b i s) :=
  append_acts hc i s.ia[i.port].lastCommand s _ fun t =>
    (Acts.input t i _ hc (.single (.remaining _ _))).trans (appendCounted_acts hc i b _)

theorem commandLegal_of_status (b : Byte) (h : isStatus b = true) (hf : b ≠ nonCommand) : commandLegal b = true := by
  simp only [commandLegal, h, Bool.true_and, Bool.or_eq_true, bne_iff_ne]
  exact .inr hf

theorem commandLegal_of_fixed (t : LenTable) (b : Byte) (n : Nat) (h : lengthOf t b = .fixed n) :
    commandLegal b = true := by
  have hd : isStatus b = true := by
    by_contra hd
    rw [isStatus_iff] at hd
    rw [lengthOf_data t b (by omega)] at h
    cases h
  exact commandLegal_of_status b hd (by rintro rfl; cases (lengthOf_ff t).symm.trans h)

theorem appendAndClassify_acts (hc : c.variant = .p1) (b : Byte) (i : MaskPort) (s : State) :
    Acts c W s (appendAndClassify b i s) := by
  unfold appendAndClassify
  split
  · split
    · rename_i n hn; exact p1Status_acts hc b (fun _ => commandLegal_of_fixed _ b n hn) i s
    · exact p1Sysex_acts hc i s
    · exact appendDeliverable_acts hc i b s
  · split
    · exact appendCounted_acts hc i b s
    · split
      · exact p1RunningStatus_acts hc b i s
      · exact appendDeliverable_acts hc i b s

theorem leaveData_acts (hc : c.variant = .p1) (s : State) : Acts c W s (leaveData s) := by
  unfold leaveData
  split
  · exact .scan s _ hc
  · exact .refl

theorem payloadStep_acts (hc : c.variant = .p1) (classify : MaskPort → State → State)
    (hcl : ∀ (i : MaskPort) (t : State), Acts c W t (classify i t)) (s : State) :
    Acts c W s (payloadStep classify s) := by
  rcases payloadStep_eq classify s with ⟨_, h⟩ | ⟨i, _, ⟨_, h⟩ | ⟨_, h⟩⟩
  · rw [h]
  · rw [h]; exact (Acts.scan s _ hc).trans (leaveData_acts hc _)
  · rw [h]; exact ((Acts.scan s _ hc).trans (hcl i _)).trans (leaveData_acts hc _)

theorem p1Byte_acts (hc : c.variant = .p1) (b : Byte) (s : State) : Acts c W s (p1Byte b s) := by
  unfold p1Byte
  split
  · exact payloadStep_acts hc _ (appendAndClassify_acts hc b) s
  · split
    · exact .refl
    · exact .scan s _ hc

theorem scanBytes_acts (byteStep : Byte → State → State) (hstep : ∀ (b : Byte) (t : State), Acts c W t (byteStep b t))
    (bytes : List Byte) (s : State) : Acts c W s (scanBytes byteStep bytes s) :=
  scanBytes_keeps (Acts c W s) byteStep
    (fun b t h => (h.trans (hstep b t)).trans (aside_setCursor _ _).acts) bytes s .refl

theorem deliverPort_acts (hc : c.variant = .p1) (p : Port) (s : State) : Acts c W s (deliverPort p s) := by
  unfold deliverPort
  split
  · rename_i h; exact (aside_emit _ s).acts.tail (.deliver _ p hc h)
  · exact .refl

theorem deliverAll_acts (hc : c.variant = .p1) (s : State) : Acts c W s (deliverAll s) :=
  deliverAll_keeps (Acts c W s) (fun p t h => h.trans (deliverPort_acts hc p t)) s .refl

theorem p1Decode_acts (hc : c.variant = .p1) (pkt : List Byte) (s : State) : Acts c W s (p1Decode pkt s) := by
  unfold p1Decode
  split
  · exact .refl
  · calc
      Acts c W s (setScan ScanState.init s) := .scan s _ hc
      Acts c W _ (setCursor 2 _) := (aside_setCursor 2 _).acts
      Acts c W _ (scanBytes p1Byte (pkt.drop 2) _) := scanBytes_acts p1Byte (p1Byte_acts hc) _ _
      Acts c W _ (deliverAll _) := deliverAll_acts hc _
      Acts c W _ (setScan ScanState.init _) := .scan _ _ hc
      Acts c W _ (setCursor 0 _) := (aside_setCursor 0 _).acts

/-! ### The Protocol 2 decoder -/

theorem P2Row.chain (hc : c.variant = .p2) (h : P2Row W s t) : Acts c W s t := .single (.p2Row s t hc h)

theorem p2Byte_acts (hc : c.variant = .p2) (b : Byte) (s : State) : Acts c W s (p2Byte b s) := by
  have onPort (f : Port → State → State) (hf : ∀ p, s.selectedPort = some p → P2Row W s (f p s)) :
      Acts c W s (withSelected f s) := by
    unfold withSelected
    split
    · exact .refl
    · rename_i p hp; exact (hf p hp).chain hc
  unfold p2Byte
  split
  · exact .refl
  · rename_i hfill
    split
    · split
      · exact (P2Row.marker s).chain hc
      · exact .refl
    · split
      · rename_i p hp; exact (P2Row.selectValid s p (by have := (validPort_some _ _ _).1 hp; omega)).chain hc
      · exact (P2Row.selectInvalid s b).chain hc
    · rename_i hst
      split
      · rename_i hb; exact onPort _ fun p hp => .dataStatus s p b hst hp fun _ => commandLegal_of_status b hb hfill
      · exact onPort _ fun p hp => .dataData s p b hst hp
    · rename_i hst; exact onPort _ fun p hp => .fixedByte s p b hst hp
    · rename_i hst
      split
      · exact onPort _ fun p hp => .sysexEnd s p hst hp
      · exact onPort _ fun p hp => .sysexByte s p b hst hp

theorem p2Decode_acts (hc : c.variant = .p2) (pkt : List Byte) (s : State) : Acts c W s (p2Decode pkt s) :=
  calc
    Acts c W s (setCursor 1 s) := (aside_setCursor 1 s).acts
    Acts c W _ (scanBytes p2Byte (pkt.drop 1) _) := scanBytes_acts p2Byte (p2Byte_acts hc) _ _
    Acts c W _ (p2Decode pkt s) := (aside_setCursor 0 _).acts

/-! ### The Protocol 2 output FIFO -/

theorem OutFifo.pushClassify_case (t : LenTable) (b : Byte) (f : OutFifo) :
    ∃ classify, PushCase classify ∧ f.pushClassify t b = classify f := by
  unfold OutFifo.pushClassify
  split
  · exact ⟨_, .sysex, rfl⟩
  · split
    · exact ⟨_, .sysexEnd, rfl⟩
    · split
      · split
        · exact ⟨_, .status _, rfl⟩
        · exact ⟨_, .sysex, rfl⟩
        · exact ⟨_, .notACommand, rfl⟩
      · split
        · exact ⟨_, .dataSpan, rfl⟩
        · exact ⟨_, .dataNospan, rfl⟩

theorem fifoPush_acts (hc : c.variant = .p2) (q : Port) (hq : q.val < c.nOut.val) (bytes : List Byte) (s : State) :
    Acts c W s (fifoPush q bytes s) := by
  refine fifoPush_keeps (Acts c W s) q (fun t h => h.trans (aside_emit _ t).acts) (fun b t h hl => ?_) bytes s .refl
  obtain ⟨classify, hcase, he⟩ := OutFifo.pushClassify_case t.lenTable b (t.fifo[q].write b)
  exact h.tail (.fifo t q _ hc hq (he ▸ .push _ b classify hcase hl))

theorem pushOne_acts (hc : c.variant = .p2) (q : Port) (hq : q.val < c.nOut.val) (b : Byte)
    {classify : OutFifo → OutFifo} (hcase : PushCase classify) (s : State) : Acts c W s (pushOne q b classify s) := by
  unfold pushOne
  split
  · exact (aside_emit _ s).acts
  · rename_i hl
    exact .single (.fifo s q _ hc hq (.push _ b classify hcase (by simpa [OutFifo.full] using hl)))

/-! ### The Protocol 2 encoder -/

theorem padGroup_acts (s : State) : Acts c W s (padGroup s) := by
  have pad (left : Nat) : ∀ s : State, Acts c W s (padSlots left s) := by
    induction left with
    | zero => exact fun _ => .refl
    | succ left ih =>
      intro s
      unfold padSlots
      split
      · exact .refl
      · exact (aside_emitSlot filler s).acts.trans (ih _)
  exact pad group s

theorem emitMarker_acts (q : Port) (s : State) : Acts c W s (emitMarker q s) :=
  (aside_emitSlot marker s).acts.trans (aside_setEnc _ _).acts

theorem emitSwitchPort_acts (hc : c.variant = .p2) (q : Port) (s : State) : Acts c W s (emitSwitchPort q s) :=
  calc
    Acts c W s (emitSlot (portByte q) s) := (aside_emitSlot _ s).acts
    Acts c W _ (setLastOutputPort q _) := .single (.lastOutputPort _ q hc)
    Acts c W _ (emitSwitchPort q s) := (aside_setEnc _ _).acts

theorem emitPrime_acts (q : Port) (s : State) : Acts c W s (emitPrime q s) :=
  (aside_emitSlot _ s).acts.trans (aside_setEnc _ _).acts

theorem switchTo_acts (hc : c.variant = .p2) (q : Port) (s : State) : Acts c W s (switchTo q s) := by
  refine ((emitMarker_acts q s).trans (emitSwitchPort_acts hc q _)).trans ?_
  unfold switchTo prime
  split
  · exact emitPrime_acts q _
  · exact (aside_setEnc _ _).acts

theorem emitFifoByte_acts (hc : c.variant = .p2) (q : Port) (hq : q.val < c.nOut.val) (s : State)
    (hs : 0 < s.fifo[q].sendableLength) : Acts c W s (emitFifoByte q s) :=
  calc
    Acts c W s (modFifo q OutFifo.sent s) := .single (.fifo s q _ hc hq (.send _ hs))
    Acts c W _ (emitSlot s.fifo[q].peek _) := (aside_emitSlot _ _).acts
    Acts c W _ (emitFifoByte q s) := (aside_setEnc _ _).acts

theorem drainPort_acts (hc : c.variant = .p2) (q : Port) (hq : q.val < c.nOut.val) (s : State) :
    Acts c W s (drainPort q s) :=
  drainLoop_keeps (Acts c W s) q (fun t h hs _ _ => h.trans (emitFifoByte_acts hc q hq t hs))
    (fun t h _ _ _ => h.trans (padGroup_acts t)) (fun t h _ _ _ => h.trans (switchTo_acts hc q t)) _ s .refl

theorem mem_visitOrder_lt (s : State) (q : Port) (h : q ∈ visitOrder s) : q.val < s.nOut.val := by
  simp only [visitOrder, List.mem_map, List.mem_range] at h
  obtain ⟨n, hn, rfl⟩ := h
  have hlt : (visitStart s + n) % s.nOut.val < s.nOut.val := Nat.mod_lt _ (by omega)
  exact lt_of_le_of_lt (Nat.mod_le _ _) hlt

theorem pack_acts (hc : c.variant = .p2) (s : State) (ho : s.nOut = c.nOut) : Acts c W s (pack s) := by
  have visit : Acts c W s (visitPorts (visitOrder s) s) :=
    visitPorts_keeps (Acts c W s) _
      (fun q t hq h => h.trans (drainPort_acts hc q (ho ▸ mem_visitOrder_lt s q hq) t)) s .refl
  unfold pack
  dsimp only
  split
  · exact visit.trans (padGroup_acts _)
  · exact visit

theorem mem_pulledPorts_lt (s : State) (q : Port) (h : q ∈ pulledPorts s) : q.val < s.nOut.val := by
  unfold pulledPorts at h
  split at h <;> simp only [List.mem_filter, decide_eq_true_eq] at h <;> omega

theorem p2Pull_acts (hc : c.variant = .p2) (s : State) (ho : s.nOut = c.nOut) : Acts c W s (p2Pull s) :=
  foldl_keeps (Acts c W s) p2PullPort _
    (fun q t hq h => (h.trans (aside_emit _ t).acts).trans
      (fifoPush_acts hc q (ho ▸ mem_pulledPorts_lt s q hq) _ _)) s .refl

theorem p2Submit_acts (s : State) : Acts c W s (p2Submit s) := by
  unfold p2Submit
  split
  · exact .refl
  · exact (aside_submit _ _ s).acts

theorem p2Encode_acts (hc : c.variant = .p2) (s : State) (ho : s.nOut = c.nOut) : Acts c W s (p2Encode s) := by
  have pulled : Acts c W s (p2Pull (setEnc EncState.init s)) :=
    (aside_setEnc _ s).acts.trans (p2Pull_acts hc _ ho)
  calc
    Acts c W s (p2Pull (setEnc EncState.init s)) := pulled
    Acts c W _ (pack _) := pack_acts hc _ (pulled.sameConfig.nOut.trans ho)
    Acts c W _ (p2Submit _) := p2Submit_acts _
    Acts c W _ (p2Encode s) := (aside_setEnc _ _).acts

/-! ### The Protocol 1 encoder -/

theorem p1Pull_acts (s : State) : Acts c W s (p1Pull s) :=
  foldl_keeps (Acts c W s) p1PullPort _
    (fun _ t _ h => (h.trans (aside_emit _ t).acts).trans (aside_setEnc _ _).acts) s .refl

theorem p1EmitSeq_acts (hc : c.variant = .p1) (s : State) : Acts c W s (p1EmitSeq s) :=
  (aside_setEnc _ s).acts.tail (.seq _ _ hc)

theorem p1Group_acts (m : Byte) (s : State) : Acts c W s (p1Group m s) := by
  unfold p1Group
  generalize maskPorts = ports
  have fold : ∀ t : State, Acts c W t
      (ports.foldl (fun t i => if m.getLsbD i.val then p1EmitPayload i t else t) t) := by
    induction ports with
    | nil => exact fun _ => .refl
    | cons i ports ih =>
      intro t
      refine Relation.ReflTransGen.trans ?_ (ih _)
      dsimp only
      split
      · exact (aside_setEnc _ t).acts
      · exact .refl
  exact (aside_setEnc _ s).acts.trans (fold _)

theorem p1Groups_acts (left : Nat) (s : State) : Acts c W s (p1Groups left s) :=
  p1Groups_keeps (Acts c W s) (fun t h _ => h.trans (aside_setActive _ t).acts)
    (fun t h _ => h.trans (p1Group_acts _ t)) left s .refl

theorem p1Finish_acts (s : State) : Acts c W s (p1Finish s) :=
  calc
    Acts c W s (p1EmitEnd s) := (aside_setEnc _ s).acts
    Acts c W _ (p1EmitEnd _) := (aside_setEnc _ _).acts
    Acts c W _ (p1Finish s) := (aside_submit _ _ _).acts

theorem p1Encode_acts (hc : c.variant = .p1) (s : State) : Acts c W s (p1Encode s) := by
  refine Relation.ReflTransGen.trans ?_ (aside_setEnc _ _).acts
  have assembled : Acts c W s
      (p1Groups p1Offsets (p1EmitRsvd (p1EmitSeq (p1Pull (setEnc EncState.init s))))) :=
    calc
      Acts c W s (setEnc EncState.init s) := (aside_setEnc _ s).acts
      Acts c W _ (p1Pull _) := p1Pull_acts _
      Acts c W _ (p1EmitSeq _) := p1EmitSeq_acts hc _
      Acts c W _ (p1EmitRsvd _) := (aside_setEnc _ _).acts
      Acts c W _ (p1Groups p1Offsets _) := p1Groups_acts _ _
  split
  · exact assembled
  · exact assembled.trans (p1Finish_acts _)

/-! ### The host operations -/

theorem decodePacket_acts (pkt : List Byte) (s : State) (hv : s.variant = c.variant) :
    Acts c W s (decodePacket pkt s) := by
  unfold decodePacket
  split
  · rename_i h; exact p1Decode_acts (hv.symm.trans h) pkt s
  · rename_i h; exact p2Decode_acts (hv.symm.trans h) pkt s

theorem encodePacket_acts (s : State) (hv : s.variant = c.variant) (ho : s.nOut = c.nOut) :
    Acts c W s (encodePacket s) := by
  unfold encodePacket
  split
  · rename_i h; exact p1Encode_acts (hv.symm.trans h) s
  · rename_i h; exact p2Encode_acts (hv.symm.trans h) s ho

theorem execRxPacket_acts (pkt : List Byte) (h : execRxPacket pkt s = .next t) : Acts (configOf s) W s t := by
  unfold execRxPacket at h
  split at h
  · split at h <;> cases h
    · calc
        Acts (configOf s) W s (setRxPosted false s) := (aside_setRxPosted _ s).acts
        Acts (configOf s) W _ (decodePacket pkt _) := decodePacket_acts pkt _ rfl
        Acts (configOf s) W _ (rearm _) := (aside_rearm _).acts
        Acts (configOf s) W _ (accept _) := (aside_accept _).acts
    · exact (aside_refuse _ s).acts
  · cases h; exact (aside_refuse _ s).acts

theorem encodeOrRefuse_acts (before s : State) (hb : Acts c W before s) (hv : s.variant = c.variant)
    (ho : s.nOut = c.nOut) : Acts c W before (encodeOrRefuse before s) := by
  unfold encodeOrRefuse
  split
  · exact (hb.trans (encodePacket_acts s hv ho)).trans (aside_accept _).acts
  · exact (aside_refuse _ before).acts

theorem execTxKick_acts (h : execTxKick s = .next t) : Acts (configOf s) W s t := by
  unfold execTxKick at h
  split at h
  · split at h <;> cases h
    · exact (aside_accept s).acts
    · exact encodeOrRefuse_acts s s .refl rfl rfl
  · cases h; exact (aside_refuse _ s).acts

theorem execTxDone_acts (ok : Bool) (h : execTxDone ok s = .next t) : Acts (configOf s) W s t := by
  unfold execTxDone at h
  split at h
  · split at h <;> cases h
    · exact encodeOrRefuse_acts s _ (aside_setActive false s).acts rfl rfl
    · exact (aside_accept s).acts
  · cases h; exact (aside_refuse _ s).acts

/-! ### The rows -/

theorem queryLength_acts (b : Byte)
    (h : Host.Outcome.next (queryLength b s) = (.next t : Host.Outcome State Fault Refusal)) : Acts c W s t := by
  cases h
  exact (aside_queryLength b s).acts

theorem whenSelected_acts {row : String} {cond : Bool} {u : State} (h : whenSelected row cond u = .next t)
    (hu : cond = true → Acts c W s u) : Acts c W s t := by
  obtain ⟨hcond, rfl⟩ := (whenSelected_next _ _ _ _).1 h
  exact hu hcond

theorem variant_of_inP1Mask (h : inP1Mask s = true) : s.variant = .p1 := by
  simp only [inP1Mask, Bool.and_eq_true, inSession_iff] at h
  obtain ⟨⟨_, hv⟩, _⟩ := h
  exact hv

theorem variant_of_inP1Payload {cond : InRec → Bool} (h : inP1Payload cond s = true) : s.variant = .p1 := by
  simp only [inP1Payload, Bool.and_eq_true, inSession_iff] at h
  obtain ⟨⟨⟨_, hv⟩, _⟩, _⟩ := h
  exact hv

theorem of_inP2 {st : P2State} (h : inP2 st s = true) : s.variant = .p2 ∧ s.p2State = st := by
  simp only [inP2, Bool.and_eq_true, inSession_iff, beq_iff_eq] at h
  obtain ⟨⟨_, hv⟩, hst⟩ := h
  exact ⟨hv, hst⟩

theorem of_inFifoPush {q : Port} (h : inFifoPush q s = true) : s.variant = .p2 ∧ q.val < s.nOut.val := by
  simp only [inFifoPush, Bool.and_eq_true, inSession_iff, decide_eq_true_eq] at h
  obtain ⟨⟨_, hv⟩, hq⟩ := h
  exact ⟨hv, hq⟩

theorem variant_of_inP2Out (h : inP2Out s = true) : s.variant = .p2 := by
  simp only [inP2Out, Bool.and_eq_true, inSession_iff] at h
  obtain ⟨⟨⟨_, hv⟩, _⟩, _⟩ := h
  exact hv

theorem variant_of_inP1Out (h : inP1Out s = true) : s.variant = .p1 := by
  simp only [inP1Out, Bool.and_eq_true, inSession_iff] at h
  obtain ⟨⟨_, hv⟩, _⟩ := h
  exact hv

theorem of_hasSendable {q : Port} (h : hasSendable q s = true) :
    q.val < s.nOut.val ∧ 0 < s.fifo[q].sendableLength := by
  simpa only [hasSendable, Bool.and_eq_true, decide_eq_true_eq] using h

/-- A row of `P1.payload`. -/
theorem payloadRow_acts {row : String} {cond : InRec → Bool} {classify : MaskPort → State → State}
    (h : whenSelected row (inP1Payload cond s) (payloadStep classify s) = .next t)
    (hcl : s.variant = .p1 → ∀ (i : MaskPort) (u : State), Acts (configOf s) W u (classify i u)) :
    Acts (configOf s) W s t := by
  refine whenSelected_acts h fun hin => ?_
  have hv := variant_of_inP1Payload hin
  exact payloadStep_acts hv classify (hcl hv) s

/-- A row of the P2 states that have a selected port. -/
theorem onSelected_acts {row : String} {st : P2State} {f : Port → State → State}
    (h : onSelected row st f s = .next t)
    (hf : ∀ p, s.p2State = st → s.selectedPort = some p → P2Row W s (f p s)) : Acts (configOf s) W s t := by
  obtain ⟨p, hp, hin, rfl⟩ := (onSelected_next _ _ _ _ _).1 h
  obtain ⟨hv, hst⟩ := of_inP2 hin
  exact (hf p hst hp).chain hv

theorem execP2SelInvalid_acts (b : Byte) (h : execP2SelInvalid b s = .next t) : Acts (configOf s) W s t := by
  refine whenSelected_acts h fun hcond => ?_
  obtain ⟨hin, _⟩ := Bool.and_eq_true_iff.1 hcond
  exact (P2Row.selectInvalid s b).chain (of_inP2 hin).1

theorem execP2SelValid_acts (b : Byte) (h : execP2SelValid b s = .next t) : Acts (configOf s) W s t := by
  unfold execP2SelValid at h
  split at h
  · cases h
  · rename_i p hp
    refine whenSelected_acts h fun hin => ?_
    have := (validPort_some _ _ _).1 hp
    exact (P2Row.selectValid s p (by omega)).chain (of_inP2 hin).1

/-- A row of `FIFO.push`, with what its condition asks beside the context. -/
theorem pushRow_acts {q : Port} {b : Byte} {row : String} {cond : Bool} {classify : OutFifo → OutFifo}
    (hcase : PushCase classify) (h : whenSelected row cond (pushOne q b classify s) = .next t)
    (hin : cond = true → inFifoPush q s = true) : Acts (configOf s) W s t := by
  refine whenSelected_acts h fun hcond => ?_
  obtain ⟨hv, hq⟩ := of_inFifoPush (hin hcond)
  exact pushOne_acts hv q hq b hcase s

theorem execP2outPort_acts (q : Port) (h : execP2outPort q s = .next t) : Acts (configOf s) W s t := by
  refine whenSelected_acts h fun hcond => ?_
  simp only [Bool.and_eq_true] at hcond
  obtain ⟨⟨⟨hin, _⟩, _⟩, _⟩ := hcond
  exact emitSwitchPort_acts (variant_of_inP2Out hin) q s

theorem execP2outPrime_acts (b : Byte) (h : execP2outPrime b s = .next t) : Acts c W s t := by
  unfold execP2outPrime at h
  split at h
  · cases h
  · exact whenSelected_acts h fun _ => emitPrime_acts _ s

theorem execP2outFifo_acts (b : Byte) (h : execP2outFifo b s = .next t) : Acts (configOf s) W s t := by
  unfold execP2outFifo at h
  split at h
  · cases h
  · refine whenSelected_acts h fun hcond => ?_
    simp only [Bool.and_eq_true] at hcond
    obtain ⟨⟨⟨⟨hin, _⟩, hs⟩, _⟩, _⟩ := hcond
    obtain ⟨hq, hs⟩ := of_hasSendable hs
    exact emitFifoByte_acts (variant_of_inP2Out hin) _ hq s hs

theorem execP1outSeq_acts (b : Byte) (h : execP1outSeq b s = .next t) : Acts (configOf s) W s t := by
  refine whenSelected_acts h fun hcond => ?_
  simp only [Bool.and_eq_true] at hcond
  obtain ⟨⟨hin, _⟩, _⟩ := hcond
  exact p1EmitSeq_acts (variant_of_inP1Out hin) s

theorem execP1outPayload_acts (b : Byte) (h : execP1outPayload b s = .next t) : Acts c W s t := by
  unfold execP1outPayload at h
  split at h
  · cases h
  · exact whenSelected_acts h fun _ => (aside_setEnc _ s).acts

/-! ### Every instruction -/

theorem commandLegal_of_p1PayStatus (b : Byte) (h : (Instr.p1PayStatus b).wf = true) : commandLegal b = true := by
  simp only [Instr.wf, Bool.and_eq_true, bne_iff_ne] at h
  obtain ⟨⟨hb, _⟩, hff⟩ := h
  exact commandLegal_of_status b hb hff

theorem commandLegal_of_p2DataStatus (b : Byte) (h : (Instr.p2DataStatus b).wf = true) : commandLegal b = true := by
  simp only [Instr.wf, Bool.and_eq_true, bne_iff_ne] at h
  obtain ⟨hb, hff⟩ := h
  exact commandLegal_of_status b hb hff

/-- Every instruction but RESET is a chain of actions of the session's configuration. `W` may be any claim that the
instruction's operand makes true. -/
theorem exec_acts (i : Instr) (hi : ∀ cfg, i ≠ .reset cfg) (hW : W → i.wf = true) (h : exec i s = .next t) :
    Acts (configOf s) W s t := by
  cases i with
  | reset cfg => exact absurd rfl (hi cfg)
  | rxPacket pkt => exact execRxPacket_acts pkt h
  | txKick => exact execTxKick_acts h
  | txDone ok => exact execTxDone_acts ok h
  | lenData | lenChan8 | lenChan9 | lenChanA | lenChanB | lenChanC | lenChanD | lenChanE | lenSysex | lenSysF1
  | lenSysF2 | lenSysF3 | lenSysF4 | lenSysF5 | lenSysF6 | lenSysF7 | lenSysF8 | lenSysF9 | lenSysFA | lenSysFB | lenSysFC
  | lenSysFD | lenSysFE | lenFF => exact queryLength_acts _ h
  | p1Mask0 => exact whenSelected_acts h fun _ => .refl
  | p1Mask b => exact whenSelected_acts h fun hc => .scan s _ (variant_of_inP1Mask hc)
  | p1PayStatus b =>
    exact payloadRow_acts h fun hv => p1Status_acts hv b fun w => commandLegal_of_p1PayStatus b (hW w)
  | p1PaySysex => exact payloadRow_acts h fun hv => p1Sysex_acts hv
  | p1PayNac => exact payloadRow_acts h fun hv i => appendDeliverable_acts hv i nonCommand
  | p1PayData b => exact payloadRow_acts h fun hv i => appendCounted_acts hv i b
  | p1PayRs b => exact payloadRow_acts h fun hv => p1RunningStatus_acts hv b
  | p1PayNoctx b => exact payloadRow_acts h fun hv i => appendDeliverable_acts hv i b
  | p2Fill => exact whenSelected_acts h fun _ => .refl
  | p2WaitMark => exact whenSelected_acts h fun hc => (P2Row.marker s).chain (of_inP2 hc).1
  | p2WaitOther b => exact whenSelected_acts h fun _ => .refl
  | p2SelValid b => exact execP2SelValid_acts b h
  | p2SelInvalid b => exact execP2SelInvalid_acts b h
  | p2DataStatus b =>
    exact onSelected_acts h fun p hst hp => .dataStatus s p b hst hp fun w => commandLegal_of_p2DataStatus b (hW w)
  | p2DataData b => exact onSelected_acts h fun p hst hp => .dataData s p b hst hp
  | p2Fixed b => exact onSelected_acts h fun p hst hp => .fixedByte s p b hst hp
  | p2SysexEnd => exact onSelected_acts h fun p hst hp => .sysexEnd s p hst hp
  | p2SysexByte b => exact onSelected_acts h fun p hst hp => .sysexByte s p b hst hp
  | fifoSysex q => exact pushRow_acts .sysex h id
  | fifoSysexEnd q => exact pushRow_acts .sysexEnd h id
  | fifoStatus q b => exact pushRow_acts (.status _) h id
  | fifoNac q => exact pushRow_acts .notACommand h id
  | fifoDataSpan q b => exact pushRow_acts .dataSpan h fun hc => (Bool.and_eq_true_iff.1 hc).1
  | fifoDataNospan q b => exact pushRow_acts .dataNospan h fun hc => (Bool.and_eq_true_iff.1 hc).1
  | p2outMarker q => exact whenSelected_acts h fun _ => emitMarker_acts q s
  | p2outPort q => exact execP2outPort_acts q h
  | p2outPrime b => exact execP2outPrime_acts b h
  | p2outFifo b => exact execP2outFifo_acts b h
  | p2outPad | p2outFinalPad => exact whenSelected_acts h fun _ => padGroup_acts s
  | p2outTrailer => exact whenSelected_acts h fun _ => (aside_setEnc _ s).acts
  | p1outSeq b => exact execP1outSeq_acts b h
  | p1outRsvd | p1outMask | p1outEnd => exact whenSelected_acts h fun _ => (aside_setEnc _ s).acts
  | p1outPayload b => exact execP1outPayload_acts b h

/-! ### What the decoder reads is well formed -/

theorem decodeLength_wf (b : Byte) : (decodeLength b).wf = true := by
  revert b; decide

theorem decodeP1Mask_wf (b : Byte) : (decodeP1Mask b).wf = true := by
  revert b; decide

theorem decodeP1Payload_wf (n : Nat) (last : LenClass) (b : Byte) : (decodeP1Payload n last b).wf = true := by
  unfold decodeP1Payload
  repeat' split
  all_goals simp_all [Instr.wf]

theorem decodeP2_wf (st : P2State) (n : PortCount) (b : Byte) : (decodeP2 st n b).wf = true := by
  unfold decodeP2
  repeat' split
  all_goals simp_all [Instr.wf]

theorem decodeFifo_wf (q : Port) (span : Nat) (b : Byte) : (decodeFifo q span b).wf = true := by
  unfold decodeFifo
  repeat' split
  all_goals simp_all [Instr.wf]

theorem decodeHost_wf (bytes : List Byte) (i : Instr) (h : decodeHost bytes = .ok i) : i.wf = true := by
  unfold decodeHost at h
  repeat' split at h
  all_goals cases h
  all_goals rfl

theorem fixedByte_wf (expected b : Byte) (i j : Instr) (hi : i.wf = true) (h : fixedByte expected b i = .ok j) :
    j.wf = true := by
  unfold fixedByte at h
  split at h <;> cases h
  exact hi

theorem decodeP2Out_wf (slot : P2Slot) (b : Byte) (i : Instr) (h : decodeP2Out slot b = .ok i) : i.wf = true := by
  cases slot with
  | switchMarker | deferredPad | finalPad | groupTrailer => exact fixedByte_wf _ b _ i rfl h
  | fifoByte => cases h; rfl
  | switchPort =>
    simp only [decodeP2Out] at h
    split at h <;> cases h
    rfl
  | priming =>
    simp only [decodeP2Out] at h
    split at h <;> cases h
    assumption

theorem decodeP1Out_wf (pos : P1Pos) (b : Byte) (i : Instr) (h : decodeP1Out pos b = .ok i) : i.wf = true := by
  cases pos with
  | headerSeq | payload => cases h; rfl
  | headerRsvd | endMarker => exact fixedByte_wf _ b _ i rfl h
  | mask =>
    simp only [decodeP1Out] at h
    split at h <;> cases h
    simpa [Instr.wf] using ‹¬ b = 0x00›

theorem decodeToken_wf (f : Byte → Except DecodeError Instr) (hf : ∀ b i, f b = .ok i → i.wf = true)
    (bytes : List Byte) (i : Instr) (h : decodeToken f bytes = .ok i) : i.wf = true := by
  unfold decodeToken at h
  split at h
  · cases h
  · exact hf _ i h
  · cases h

theorem decodeByte_wf (f : Byte → Instr) (hf : ∀ b, (f b).wf = true) (bytes : List Byte) (i : Instr)
    (h : decodeByte f bytes = .ok i) : i.wf = true :=
  decodeToken_wf _ (fun b j hj => by cases hj; exact hf b) bytes i h

theorem decode_wf (ctx : Context) (bytes : List Byte) (i : Instr) (h : decode ctx bytes = .ok i) : i.wf = true := by
  cases ctx with
  | host => exact decodeHost_wf bytes i h
  | lengthOf => exact decodeByte_wf _ decodeLength_wf bytes i h
  | p1Mask => exact decodeByte_wf _ decodeP1Mask_wf bytes i h
  | p1Payload n last => exact decodeByte_wf _ (decodeP1Payload_wf n last) bytes i h
  | p2 st n => exact decodeByte_wf _ (decodeP2_wf st n) bytes i h
  | fifoPush q span => exact decodeByte_wf _ (decodeFifo_wf q span) bytes i h
  | p2Out slot => exact decodeToken_wf _ (decodeP2Out_wf slot) bytes i h
  | p1Out pos => exact decodeToken_wf _ (decodeP1Out_wf pos) bytes i h

/-! ### Every step -/

theorem execReset_next (cfg : BitVec 16) (h : execReset cfg s = .next t) :
    t = refuse .illegalCfg s ∨ ∃ c, t = accept (startSession c s) := by
  unfold execReset at h
  split at h <;> cases h
  · exact .inl rfl
  · exact .inr ⟨_, rfl⟩

/-- A property that a new session has, and that every action of a session keeps, holds after every step. -/
theorem step_keeps (P : State → Prop) (hreset : ∀ c s, P s → P (startSession c s))
    (hact : ∀ s t, Act (configOf s) True s t → P s → P t) (h : step s = .next t) (hs : P s) : P t := by
  have haside (x y : State) (hxy : Aside x y) : P x → P y := hact x y (.aside x y hxy)
  rcases (step_next s t).1 h with ⟨_, rfl⟩ | ⟨r, rest, ctx, i, _, _, hdec, hexec⟩
  · exact hs
  · have htake := haside _ _ (aside_takeRequest r rest s) hs
    by_cases hi : ∀ cfg, i ≠ .reset cfg
    · exact (exec_acts i hi (fun _ => decode_wf ctx _ i hdec) hexec).keeps P hact htake
    · push Not at hi
      obtain ⟨cfg, rfl⟩ := hi
      rcases execReset_next cfg hexec with rfl | ⟨c, rfl⟩
      · exact haside _ _ (aside_refuse _ _) htake
      · exact haside _ _ (aside_accept _) (hreset c _ htake)

/-! ### The configuration -/

/-- Settles O14: every chain keeps the configuration, and RESET keeps the length table. -/
theorem onlyResetWritesTheConfiguration : Obligations.OnlyResetWritesTheConfiguration := by
  intro i s t h
  by_cases hi : ∀ cfg, i ≠ .reset cfg
  · have hcfg : SameConfig s t := (exec_acts (W := False) i hi False.elim h).sameConfig
    exact ⟨hcfg.lenTable, fun _ => ⟨hcfg.variant, hcfg.nIn, hcfg.nOut, hcfg.sessionOpen⟩⟩
  · refine ⟨?_, fun hne => absurd hne hi⟩
    push Not at hi
    obtain ⟨cfg, rfl⟩ := hi
    rcases execReset_next cfg h with rfl | ⟨c, rfl⟩ <;> rfl

end Sys2Proof.Machine
end

section
/-! PROOFS. The invariants of 10_state.md, each kept by RESET and by every action, and so by every step. -/

namespace Sys2Proof.Machine

variable {W : Prop} {s t : State}

/-! ### Every record -/

/-- A claim about every input record is kept where it holds of the record written. -/
theorem forall_modIn (P : Port → InRec → Prop) (p : Port) (f : InRec → InRec) (s : State)
    (hs : ∀ p' : Port, P p' s.ia[p']) (hp : P p (f s.ia[p])) (p' : Port) : P p' (modIn p f s).ia[p'] := by
  by_cases h : p' = p
  · subst h; rw [modIn_self]; exact hp
  · rw [modIn_ne p p' f s h]; exact hs p'

/-- A claim about every FIFO is kept where it holds of the FIFO written. -/
theorem forall_modFifo (P : Port → OutFifo → Prop) (q : Port) (f : OutFifo → OutFifo) (s : State)
    (hs : ∀ q' : Port, P q' s.fifo[q']) (hq : P q (f s.fifo[q])) (q' : Port) : P q' (modFifo q f s).fifo[q'] := by
  by_cases h : q' = q
  · subst h; rw [modFifo_self]; exact hq
  · rw [modFifo_ne q q' f s h]; exact hs q'

theorem startSession_ia (c : SessionConfig) (s : State) (p : Port) :
    (startSession c s).ia[p] = InRec.fresh (freshBuf s.freeDraws p.val) := by
  simp [startSession, rearm]

theorem startSession_fifo (c : SessionConfig) (s : State) (q : Port) :
    (startSession c s).fifo[q] = OutFifo.fresh (freshBuf s.freeDraws (maxPortSlots + q.val)) := by
  simp [startSession, rearm]

/-! ### The input records (10_state.md R25) -/

theorem InRec.ok_iff (r : InRec) :
    r.ok = true ↔ r.deliverableLength ≤ r.length ∧ r.length ≤ cap ∧ commandLegal r.lastCommand = true := by
  simp only [InRec.ok, Bool.and_eq_true, decide_eq_true_eq, and_assoc]

theorem InRec.fresh_ok (buf : Vector Byte cap) : (InRec.fresh buf).ok = true :=
  (InRec.ok_iff _).2 ⟨le_rfl, Nat.zero_le _, rfl⟩

theorem RecAct.ok {r r' : InRec} (h : RecAct True r r') (hr : r.ok = true) : r'.ok = true := by
  rw [InRec.ok_iff] at hr ⊢
  obtain ⟨hd, hl, hcmd⟩ := hr
  cases h with
  | push b hfull => exact ⟨Nat.le_succ_of_le hd, Nat.succ_le_of_lt (lt_of_le_of_ne hl hfull), hcmd⟩
  | command b hb => exact ⟨hd, hl, hb trivial⟩
  | remaining n => exact ⟨hd, hl, hcmd⟩
  | mark => exact ⟨le_rfl, hl, hcmd⟩
  | clear => exact ⟨le_rfl, Nat.zero_le _, hcmd⟩

theorem RecActs.ok {r r' : InRec} (h : RecActs True r r') (hr : r.ok = true) : r'.ok = true :=
  chain_keeps (fun r => r.ok = true) (fun _ _ => RecAct.ok) h hr

theorem InRec.shiftOut_ok (r : InRec) (d : Nat) (hr : r.ok = true) : (r.shiftOut d).ok = true := by
  rw [InRec.ok_iff] at hr ⊢
  simp only [InRec.shiftOut_deliverableLength, InRec.shiftOut_length, InRec.shiftOut_lastCommand]
  obtain ⟨_, hl, hcmd⟩ := hr
  exact ⟨Nat.zero_le _, (Nat.sub_le _ _).trans hl, hcmd⟩

theorem InputOk.modIn (hs : InputOk s) {p : Port} {f : InRec → InRec} (hr : (f s.ia[p]).ok = true) :
    InputOk (modIn p f s) :=
  forall_modIn (fun _ r => r.ok = true) p f s hs hr

theorem P2Act.inputOk (h : P2Act True s t) (hs : InputOk s) : InputOk t := by
  cases h with
  | report | move | deselect => exact hs
  | select p _ => exact InputOk.modIn hs (RecAct.ok (.clear _) (hs p))
  | record p f _ hr => exact InputOk.modIn hs (hr.ok (hs p))

theorem Act.inputOk {c : SessionConfig} (h : Act c True s t) (hs : InputOk s) : InputOk t := by
  cases h with
  | aside _ h => intro p; rw [h.ia]; exact hs p
  | scan | fifo | lastOutputPort | seq => exact hs
  | input i f _ hr => exact InputOk.modIn hs (hr.ok (hs i.port))
  | deliver p => exact InputOk.modIn hs (InRec.shiftOut_ok _ _ (hs p))
  | p2Row _ _ h => exact chain_keeps InputOk (fun _ _ => P2Act.inputOk) h.acts hs

theorem startSession_inputOk (c : SessionConfig) (s : State) : InputOk (startSession c s) := by
  intro p
  rw [startSession_ia]
  exact InRec.fresh_ok _

/-- Settles O57: every action keeps R25, because every write to a record does. -/
theorem stepKeepsTheInputInvariant : Obligations.StepKeepsTheInputInvariant :=
  fun _ _ hs h => step_keeps InputOk (fun c x _ => startSession_inputOk c x) (fun _ _ => Act.inputOk) h hs

/-! ### The output FIFOs (10_state.md R31) -/

theorem OutFifo.ok_iff (f : OutFifo) :
    f.ok = true ↔ f.sendableLength ≤ f.length ∧ f.length ≤ cap ∧ f.rd < cap ∧ f.wr = (f.rd + f.length) % cap ∧
      f.remaining ≤ f.commandSpanLength := by
  simp only [OutFifo.ok, Bool.and_eq_true, decide_eq_true_eq, and_assoc]

theorem OutFifo.fresh_ok (buf : Vector Byte cap) : (OutFifo.fresh buf).ok = true :=
  (OutFifo.ok_iff _).2 (by simp [OutFifo.fresh])

theorem OutFifo.write_ok (f : OutFifo) (b : Byte) (hfull : f.length ≠ cap) (hf : f.ok = true) :
    (f.write b).ok = true := by
  rw [OutFifo.ok_iff] at hf ⊢
  obtain ⟨hs, hl, hr, hw, hspan⟩ := hf
  refine ⟨Nat.le_succ_of_le hs, Nat.succ_le_of_lt (lt_of_le_of_ne hl hfull), hr, ?_, hspan⟩
  simp only [OutFifo.write_wr, OutFifo.write_rd, OutFifo.write_length, hw, cap]
  omega

theorem OutFifo.withSpan_ok (f : OutFifo) (n : Nat) (hf : f.ok = true) : (f.withSpan n).ok = true := by
  rw [OutFifo.ok_iff] at hf ⊢
  obtain ⟨hs, hl, hr, hw, _⟩ := hf
  exact ⟨hs, hl, hr, hw, le_rfl⟩

theorem OutFifo.markSendable_ok (f : OutFifo) (hf : f.ok = true) : f.markSendable.ok = true := by
  rw [OutFifo.ok_iff] at hf ⊢
  obtain ⟨_, hl, hr, hw, hspan⟩ := hf
  exact ⟨le_rfl, hl, hr, hw, hspan⟩

theorem OutFifo.countdown_ok (f : OutFifo) (n : Nat) (hn : n ≤ f.commandSpanLength) (hf : f.ok = true) :
    OutFifo.ok { f with remaining := n } = true := by
  rw [OutFifo.ok_iff] at hf ⊢
  obtain ⟨hs, hl, hr, hw, _⟩ := hf
  exact ⟨hs, hl, hr, hw, hn⟩

theorem OutFifo.reloaded_le (f : OutFifo) (hf : f.ok = true) : f.reloaded ≤ f.commandSpanLength := by
  obtain ⟨_, _, _, _, hspan⟩ := (OutFifo.ok_iff f).1 hf
  unfold OutFifo.reloaded
  split
  · exact le_rfl
  · exact hspan

theorem PushCase.ok {classify : OutFifo → OutFifo} (h : PushCase classify) (f : OutFifo) (hf : f.ok = true) :
    (classify f).ok = true := by
  cases h with
  | sysex => exact f.withSpan_ok 0 hf
  | sysexEnd => exact f.markSendable.withSpan_ok 0 (f.markSendable_ok hf)
  | status n =>
    unfold OutFifo.pushedStatus
    split
    · exact (f.withSpan n).markSendable_ok (f.withSpan_ok n hf)
    · exact f.withSpan_ok n hf
  | notACommand => exact (f.withSpan 0).markSendable_ok (f.withSpan_ok 0 hf)
  | dataSpan =>
    unfold OutFifo.pushedDataSpan
    split
    · exact OutFifo.markSendable_ok _ (f.countdown_ok 0 (Nat.zero_le _) hf)
    · exact f.countdown_ok _ ((Nat.sub_le _ _).trans (f.reloaded_le hf)) hf
  | dataNospan => exact hf

theorem OutFifo.pop_ok (f : OutFifo) (hsend : 0 < f.sendableLength) (hf : f.ok = true) : f.pop.ok = true := by
  rw [OutFifo.ok_iff] at hf ⊢
  obtain ⟨hs, hl, hr, hw, hspan⟩ := hf
  refine ⟨Nat.sub_le_sub_right hs 1, (Nat.sub_le _ _).trans hl, Nat.mod_lt _ (by decide), ?_, hspan⟩
  simp only [OutFifo.pop_wr, OutFifo.pop_rd, OutFifo.pop_length, hw, cap]
  omega

theorem OutFifo.sent_ok (f : OutFifo) (hsend : 0 < f.sendableLength) (hf : f.ok = true) : f.sent.ok = true := by
  have hpop := f.pop_ok hsend hf
  unfold OutFifo.sent
  split
  · rw [OutFifo.ok_iff] at hpop ⊢; exact hpop
  · exact hpop

theorem FifoAct.ok {f f' : OutFifo} (h : FifoAct f f') (hf : f.ok = true) : f'.ok = true := by
  cases h with
  | push b classify hc hfull => exact hc.ok _ (f.write_ok b hfull hf)
  | send hsend => exact f.sent_ok hsend hf

/-- The P2 decoder writes no FIFO. -/
theorem P2Act.fifo (h : P2Act W s t) : t.fifo = s.fifo := by
  cases h <;> rfl

theorem P2Row.fifo (h : P2Row W s t) : t.fifo = s.fifo :=
  chain_keeps (fun x => x.fifo = s.fifo) (fun _ _ h' hx => h'.fifo.trans hx) h.acts rfl

theorem Act.fifoOk {c : SessionConfig} (h : Act c W s t) (hs : FifoOk s) : FifoOk t := by
  cases h with
  | aside _ h => intro q; rw [h.fifo]; exact hs q
  | scan | input | deliver | lastOutputPort | seq => exact hs
  | p2Row _ _ h => intro q; rw [h.fifo]; exact hs q
  | fifo q f _ _ hf => exact forall_modFifo (fun _ r => r.ok = true) q f s hs (hf.ok (hs q))

theorem startSession_fifoOk (c : SessionConfig) (s : State) : FifoOk (startSession c s) := by
  intro q
  rw [startSession_fifo]
  exact OutFifo.fresh_ok _

/-- Settles O41: every action keeps R31, because every write to a FIFO does. -/
theorem stepKeepsTheFifoInvariant : Obligations.StepKeepsTheFifoInvariant :=
  fun _ _ hs h => step_keeps FifoOk (fun c x _ => startSession_fifoOk c x) (fun _ _ => Act.fifoOk) h hs

/-! ### The state the variant does not use (10_state.md R27, R33, R40) -/

/-- What a session of P1 leaves at its reset value. -/
def UnusedInP1 (s : State) : Prop :=
  s.ia[(8 : Port)].isFresh = true ∧ (∀ q : Port, s.fifo[q].isFresh = true) ∧ s.p2State = .waitMarker ∧
    s.selectedPort = none ∧ s.lastOutputPort = none

/-- What a session of P2 leaves at its reset value, with the range of the selected port, by which the decoder writes. -/
structure UnusedInP2 (s : State) : Prop where
  ia : ∀ p : Port, s.nIn.val ≤ p.val → s.ia[p].isFresh = true
  fifo : ∀ q : Port, s.nOut.val ≤ q.val → s.fifo[q].isFresh = true
  seq : s.seq = 0x00
  scan : s.scan = ScanState.init
  selected : ∀ p : Port, s.selectedPort = some p → p.val < s.nIn.val

theorem UnusedOk.inP1 (h : UnusedOk s) (hv : s.variant = .p1) : UnusedInP1 s := h.1 hv

theorem UnusedInP1.unusedOk (h : UnusedInP1 s) (hv : s.variant = .p1) : UnusedOk s :=
  ⟨fun _ => h, fun hv' => by rw [hv] at hv'; cases hv'⟩

theorem UnusedOk.inP2 (h : UnusedOk s) (hv : s.variant = .p2) : UnusedInP2 s := by
  obtain ⟨hi, hf, hq, hsc, hsel⟩ := h.2 hv
  exact ⟨hi, hf, hq, hsc, hsel⟩

theorem UnusedInP2.unusedOk (h : UnusedInP2 s) (hv : s.variant = .p2) : UnusedOk s :=
  ⟨fun hv' => (by rw [hv] at hv'; cases hv'), fun _ => ⟨h.ia, h.fifo, h.seq, h.scan, h.selected⟩⟩

theorem Aside.unusedOk (h : Aside s t) (hs : UnusedOk s) : UnusedOk t := by
  unfold UnusedOk
  rw [h.variant, h.nIn, h.nOut, h.ia, h.fifo, h.p2State, h.selectedPort, h.lastOutputPort, h.seq, h.scan]
  exact hs

theorem InRec.fresh_isFresh (buf : Vector Byte cap) : (InRec.fresh buf).isFresh = true := by
  simp [InRec.isFresh, InRec.fresh]

theorem OutFifo.fresh_isFresh (buf : Vector Byte cap) : (OutFifo.fresh buf).isFresh = true := by
  simp [OutFifo.isFresh, OutFifo.fresh]

theorem InRec.deliverableLength_of_isFresh (r : InRec) (h : r.isFresh = true) : r.deliverableLength = 0 := by
  simp only [InRec.isFresh, beq_iff_eq] at h
  rw [h, InRec.fresh]

/-- The ninth port is no P1 mask port (00_scope.md R8). -/
theorem maskPort_ne_eight (i : MaskPort) : (8 : Port) ≠ i.port := by
  revert i; decide

theorem P2Act.unusedInP2 (h : P2Act W s t) (hs : UnusedInP2 s) : UnusedInP2 t := by
  obtain ⟨hi, hf, hq, hsc, hsel⟩ := hs
  cases h with
  | report | move => exact ⟨hi, hf, hq, hsc, hsel⟩
  | deselect => exact ⟨hi, hf, hq, hsc, fun _ h => by cases h⟩
  | select p hp =>
    refine ⟨forall_modIn (fun p' r => s.nIn.val ≤ p'.val → r.isFresh = true) p _ s hi ?_, hf, hq, hsc, fun p' h => ?_⟩
    · exact fun hge => absurd hp (by omega)
    · cases h; exact hp
  | record p f hp _ =>
    refine ⟨forall_modIn (fun p' r => s.nIn.val ≤ p'.val → r.isFresh = true) p f s hi ?_, hf, hq, hsc, hsel⟩
    exact fun hge => absurd (hsel p hp) (by omega)

theorem Act.unusedOk (h : Act (configOf s) W s t) (hs : UnusedOk s) : UnusedOk t := by
  cases h with
  | aside _ h => exact h.unusedOk hs
  | scan | seq =>
    rename_i hv
    have hs1 : UnusedInP1 s := UnusedOk.inP1 hs hv
    exact UnusedInP1.unusedOk hs1 hv
  | lastOutputPort q hv =>
    obtain ⟨hi, hf, hq, hsc, hsel⟩ := UnusedOk.inP2 hs hv
    exact UnusedInP2.unusedOk ⟨hi, hf, hq, hsc, hsel⟩ hv
  | input i f hv _ =>
    obtain ⟨h8, hrest⟩ := UnusedOk.inP1 hs hv
    refine UnusedInP1.unusedOk ⟨?_, hrest⟩ hv
    rw [modIn_ne _ _ f s (maskPort_ne_eight i)]
    exact h8
  | deliver p hv hd =>
    obtain ⟨h8, hrest⟩ := UnusedOk.inP1 hs hv
    refine UnusedInP1.unusedOk ⟨?_, hrest⟩ hv
    have hne : (8 : Port) ≠ p := by
      rintro rfl
      exact hd.ne' (InRec.deliverableLength_of_isFresh _ h8)
    rw [modIn_ne _ _ _ s hne]
    exact h8
  | p2Row _ hv h =>
    exact UnusedInP2.unusedOk (chain_keeps UnusedInP2 (fun _ _ => P2Act.unusedInP2) h.acts (UnusedOk.inP2 hs hv))
      (h.sameConfig.variant.trans hv)
  | fifo q f hv hlt _ =>
    obtain ⟨hi, hf, hq, hsc, hsel⟩ := UnusedOk.inP2 hs hv
    have hf' := forall_modFifo (fun q' r => s.nOut.val ≤ q'.val → r.isFresh = true) q f s hf
      fun hge => absurd hlt (Nat.not_lt.2 hge)
    exact UnusedInP2.unusedOk ⟨hi, hf', hq, hsc, hsel⟩ hv

theorem startSession_unusedOk (c : SessionConfig) (s : State) : UnusedOk (startSession c s) := by
  have hi (p : Port) : (startSession c s).ia[p].isFresh = true := by
    rw [startSession_ia]; exact InRec.fresh_isFresh _
  have hf (q : Port) : (startSession c s).fifo[q].isFresh = true := by
    rw [startSession_fifo]; exact OutFifo.fresh_isFresh _
  exact ⟨fun _ => ⟨hi 8, hf, rfl, rfl, rfl⟩,
    fun _ => ⟨fun p _ => hi p, fun q _ => hf q, rfl, rfl, fun _ h => by cases h⟩⟩

/-- Settles O58: an action writes only what its variant uses, and the P2 decoder only the selected port's record. -/
theorem stepKeepsUnusedState : Obligations.StepKeepsUnusedState :=
  fun _ _ hs h => step_keeps UnusedOk (fun c x _ => startSession_unusedOk c x) (fun _ _ => Act.unusedOk) h hs

end Sys2Proof.Machine
end

section
/-! PROOFS. The P2 decoder is consistent after every step (10_state.md R29, 43_p2_decoder.md R178, R181). -/

namespace Sys2Proof.Machine

variable {W : Prop} {s t : State} {p : Port}

/-! ### Consistency, state by state -/

theorem p2Consistent_data (hst : s.p2State = .data) (hp : s.selectedPort = some p) :
    p2Consistent s = true ↔ p.val < s.nIn.val ∧ s.ia[p].length = 0 := by
  simp only [p2Consistent, hst, hp, Bool.and_eq_true, decide_eq_true_eq, beq_iff_eq]

theorem p2Consistent_fixedLen (hst : s.p2State = .fixedLen) (hp : s.selectedPort = some p) :
    p2Consistent s = true ↔
      p.val < s.nIn.val ∧ s.ia[p].length < s.ia[p].bytesRemaining ∧ s.ia[p].bytesRemaining ≤ 3 := by
  simp only [p2Consistent, hst, hp, Bool.and_eq_true, decide_eq_true_eq, and_assoc]

theorem p2Consistent_sysEx (hst : s.p2State = .sysEx) (hp : s.selectedPort = some p) :
    p2Consistent s = true ↔ p.val < s.nIn.val := by
  simp only [p2Consistent, hst, hp, decide_eq_true_eq]

/-- A selected port is valid (10_state.md R29). -/
theorem selectedPort_lt (h : p2Consistent s = true) (hp : s.selectedPort = some p) : p.val < s.nIn.val := by
  cases hst : s.p2State with
  | data => exact ((p2Consistent_data hst hp).1 h).1
  | fixedLen => exact ((p2Consistent_fixedLen hst hp).1 h).1
  | sysEx => exact (p2Consistent_sysEx hst hp).1 h
  | waitMarker | portSelect => simp [p2Consistent, hst, hp] at h

theorem selectedPort_of_waitMarker (h : p2Consistent s = true) (hst : s.p2State = .waitMarker) :
    s.selectedPort = none := by
  cases hp : s.selectedPort with
  | none => rfl
  | some p => simp [p2Consistent, hst, hp] at h

/-! ### The invariant in each variant -/

/-- A session of P1 keeps the decoder at rest, whatever its records hold. -/
theorem p2DecoderOk_of_p1 (hv : s.variant = .p1) (hst : s.p2State = .waitMarker) (hp : s.selectedPort = none) :
    P2DecoderOk s :=
  ⟨by simp only [p2Consistent, hst, hp], fun _ => hst, fun hv' => by rw [hv] at hv'; cases hv'⟩

theorem p2DecoderOk_of_p2 (hv : s.variant = .p2) (hc : p2Consistent s = true)
    (hd : ∀ p : Port, s.ia[p].deliverableLength = 0) : P2DecoderOk s :=
  ⟨hc, fun hv' => (by rw [hv] at hv'; cases hv'), fun _ => hd⟩

theorem p2DecoderOk_congr (hcfg : SameConfig s t) (hia : t.ia = s.ia) (hst : t.p2State = s.p2State)
    (hp : t.selectedPort = s.selectedPort) (hs : P2DecoderOk s) : P2DecoderOk t := by
  have hc : p2Consistent t = p2Consistent s := by simp only [p2Consistent, hcfg.nIn, hia, hst, hp]
  rw [P2DecoderOk, hc, hcfg.variant, hia, hst]
  exact hs

/-! ### The rows that run on the selected port -/

/-- A P2 session has selected a valid port, and no record holds a deliverable byte: what holds all along a row of Data,
FixedLen or SysEx. -/
structure Holding (p : Port) (s : State) : Prop where
  variant : s.variant = .p2
  selected : s.selectedPort = some p
  valid : p.val < s.nIn.val
  undelivered : ∀ p' : Port, s.ia[p'].deliverableLength = 0

theorem P2DecoderOk.holding (hs : P2DecoderOk s) (hv : s.variant = .p2) (hp : s.selectedPort = some p) :
    Holding p s := by
  obtain ⟨hc, _, hd⟩ := hs
  exact ⟨hv, hp, selectedPort_lt hc hp, hd hv⟩

theorem undelivered_modIn (hs : ∀ p' : Port, s.ia[p'].deliverableLength = 0) {f : InRec → InRec}
    (hf : (f s.ia[p]).deliverableLength = 0) (p' : Port) : (modIn p f s).ia[p'].deliverableLength = 0 :=
  forall_modIn (fun _ r => r.deliverableLength = 0) p f s hs hf p'

theorem Holding.modIn (hs : Holding p s) {f : InRec → InRec} (hf : (f s.ia[p]).deliverableLength = 0) :
    Holding p (modIn p f s) :=
  ⟨hs.variant, hs.selected, hs.valid, undelivered_modIn hs.undelivered hf⟩

theorem p2Overflow_ok (hs : Holding p s) : P2DecoderOk (p2Overflow p s) :=
  p2DecoderOk_of_p2 hs.variant rfl (undelivered_modIn hs.undelivered rfl)

theorem p2Complete_ok (hs : Holding p s) : P2DecoderOk (p2Complete p s) := by
  refine p2DecoderOk_of_p2 hs.variant ?_ (undelivered_modIn hs.undelivered rfl)
  refine (p2Consistent_data (s := p2Complete p s) rfl hs.selected).2 ⟨hs.valid, ?_⟩
  exact congrArg InRec.length (modIn_self p InRec.clear _)

theorem p2CompleteIfFull_ok (hs : Holding p s) (hst : s.p2State = .fixedLen) (hr : s.ia[p].bytesRemaining ≤ 3) :
    P2DecoderOk (p2CompleteIfFull p s) := by
  unfold p2CompleteIfFull
  split
  · exact p2Complete_ok hs
  · rename_i hlt
    exact p2DecoderOk_of_p2 hs.variant
      ((p2Consistent_fixedLen hst hs.selected).2 ⟨hs.valid, Nat.lt_of_not_le hlt, hr⟩) hs.undelivered

theorem p2EnterFixed_ok (hs : Holding p s) (total : Nat) (ht : total ≤ 3) : P2DecoderOk (p2EnterFixed p total s) := by
  obtain ⟨hv, hp, hlt, hd⟩ := hs.modIn (f := InRec.withRemaining total) (hs.undelivered p)
  refine p2CompleteIfFull_ok ⟨hv, hp, hlt, hd⟩ rfl ?_
  exact (congrArg InRec.bytesRemaining (modIn_self p (InRec.withRemaining total) s)).trans_le ht

/-- Classify leaves a consistent decoder whatever the record holds: EntryCheck completes a message that is already whole
(43_p2_decoder.md R173). -/
theorem p2Classify_ok (hwf : s.lenTable.wf = true) (hs : Holding p s) : P2DecoderOk (p2Classify p s) := by
  unfold p2Classify
  split
  · exact p2DecoderOk_of_p2 hs.variant rfl hs.undelivered
  · split
    · have hc := (p2Consistent_sysEx (s := setP2 .sysEx s.selectedPort s) rfl hs.selected).2 hs.valid
      exact p2DecoderOk_of_p2 hs.variant hc hs.undelivered
    · rename_i total ht
      exact p2EnterFixed_ok hs total (lengthOf_range _ hwf _ _ ht).2
    · exact p2EnterFixed_ok hs implied3 le_rfl

/-- A row that appends a byte leaves a consistent decoder where what follows the append does. -/
theorem append_p2DecoderOk (hs : Holding p s) (b : Byte) (next : State → State)
    (hnext : Holding p (modIn p (InRec.push b) s) → P2DecoderOk (next (modIn p (InRec.push b) s))) :
    P2DecoderOk (match append p b s with
      | none => p2Overflow p s
      | some t => next t) := by
  rcases append_eq p b s with ⟨_, h⟩ | ⟨_, h⟩
  · rw [h]; exact p2Overflow_ok hs
  · rw [h]; exact hnext (hs.modIn (hs.undelivered p))

theorem p2DataStatus_ok (hwf : s.lenTable.wf = true) (hs : Holding p s) (b : Byte) :
    P2DecoderOk (p2DataStatus b p s) :=
  append_p2DecoderOk (hs.modIn (f := InRec.withCommand b) (hs.undelivered p)) b (p2Classify p) (p2Classify_ok hwf)

theorem p2DataData_ok (hwf : s.lenTable.wf = true) (hs : Holding p s) (b : Byte) : P2DecoderOk (p2DataData b p s) :=
  append_p2DecoderOk hs _ _ fun hs' => append_p2DecoderOk hs' b (p2Classify p) (p2Classify_ok hwf)

theorem p2FixedByte_ok (hs : Holding p s) (hst : s.p2State = .fixedLen) (hc : p2Consistent s = true) (b : Byte) :
    P2DecoderOk (p2FixedByte b p s) := by
  obtain ⟨_, _, hr⟩ := (p2Consistent_fixedLen hst hs.selected).1 hc
  refine append_p2DecoderOk hs b (p2CompleteIfFull p) fun hs' => p2CompleteIfFull_ok hs' hst ?_
  exact (congrArg InRec.bytesRemaining (modIn_self p (InRec.push b) s)).trans_le hr

theorem p2SysexEnd_ok (hs : Holding p s) : P2DecoderOk (p2SysexEnd p s) :=
  append_p2DecoderOk hs sysexEnd (p2Complete p) p2Complete_ok

theorem p2SysexByte_ok (hs : Holding p s) (hst : s.p2State = .sysEx) (b : Byte) : P2DecoderOk (p2SysexByte b p s) := by
  refine append_p2DecoderOk hs b id fun hs' => ?_
  have hc := (p2Consistent_sysEx (s := modIn p (InRec.push b) s) hst hs'.selected).2 hs'.valid
  exact p2DecoderOk_of_p2 hs'.variant hc hs'.undelivered

/-! ### Every action -/

theorem p2SelectValid_ok (hv : s.variant = .p2) (hp : p.val < s.nIn.val)
    (hd : ∀ p' : Port, s.ia[p'].deliverableLength = 0) : P2DecoderOk (p2SelectValid p s) := by
  refine p2DecoderOk_of_p2 hv ?_ (undelivered_modIn hd rfl)
  exact (p2Consistent_data rfl rfl).2 ⟨hp, congrArg InRec.length (modIn_self p InRec.clear s)⟩

theorem P2Row.p2DecoderOk (h : P2Row W s t) (hwf : s.lenTable.wf = true) (hv : s.variant = .p2)
    (hs : P2DecoderOk s) : P2DecoderOk t := by
  have holding {p : Port} (hp : s.selectedPort = some p) : Holding p s := P2DecoderOk.holding hs hv hp
  obtain ⟨hc, _, hd⟩ := hs
  cases h with
  | marker | selectInvalid => exact p2DecoderOk_of_p2 hv rfl (hd hv)
  | selectValid p hp => exact p2SelectValid_ok hv hp (hd hv)
  | dataStatus p b _ hp => exact p2DataStatus_ok hwf (holding hp) b
  | dataData p b _ hp => exact p2DataData_ok hwf (holding hp) b
  | fixedByte p b hst hp => exact p2FixedByte_ok (holding hp) hst hc b
  | sysexEnd p _ hp => exact p2SysexEnd_ok (holding hp)
  | sysexByte p b hst hp => exact p2SysexByte_ok (holding hp) hst b

theorem Act.p2DecoderOk (h : Act (configOf s) W s t) (hwf : s.lenTable.wf = true) (hs : P2DecoderOk s) :
    P2DecoderOk t := by
  cases h with
  | aside _ h => exact p2DecoderOk_congr h.toSameConfig h.ia h.p2State h.selectedPort hs
  | scan | seq | lastOutputPort | fifo => exact hs
  | input _ _ hv | deliver _ hv =>
    obtain ⟨hc, hrest, _⟩ := hs
    have hst : s.p2State = .waitMarker := hrest hv
    have hp : s.selectedPort = none := selectedPort_of_waitMarker hc hst
    exact p2DecoderOk_of_p1 hv hst hp
  | p2Row _ hv h => exact h.p2DecoderOk hwf hv hs

theorem startSession_p2DecoderOk (c : SessionConfig) (s : State) : P2DecoderOk (startSession c s) :=
  ⟨rfl, fun _ => rfl, fun _ p => by rw [startSession_ia]; rfl⟩

/-- Settles O33: the decoder's rows keep it consistent under a legal table, and no other action writes its state. -/
theorem stepKeepsTheP2Decoder : Obligations.StepKeepsTheP2Decoder := by
  intro s t hwf hs h
  refine (step_keeps (fun x => x.lenTable.wf = true ∧ P2DecoderOk x) ?_ ?_ h ⟨hwf, hs⟩).2
  · exact fun c x ⟨hx, _⟩ => ⟨hx, startSession_p2DecoderOk c x⟩
  · exact fun x y hxy ⟨hx, hok⟩ => ⟨hxy.sameConfig.lenTable ▸ hx, hxy.p2DecoderOk hx hok⟩

/-! ### The reset state -/

theorem reset_ia (p : Port) : State.reset.ia[p] = InRec.fresh (Vector.replicate cap 0x00) := by
  simp [State.reset]

theorem reset_fifo (q : Port) : State.reset.fifo[q] = OutFifo.fresh (Vector.replicate cap 0x00) := by
  simp [State.reset]

theorem unusedInP1_reset : UnusedInP1 State.reset :=
  ⟨by rw [reset_ia]; exact InRec.fresh_isFresh _, fun q => by rw [reset_fifo]; exact OutFifo.fresh_isFresh _,
    rfl, rfl, rfl⟩

theorem scanOk_reset : ScanOk State.reset :=
  ⟨by decide, fun _ h => absurd h (Nat.not_lt_zero _)⟩

/-- Settles O10: the records are fresh, and the decoders are at rest. -/
theorem invariantsHoldAtReset : Obligations.InvariantsHoldAtReset :=
  ⟨fun p => by rw [reset_ia]; exact InRec.fresh_ok _,
    fun q => by rw [reset_fifo]; exact OutFifo.fresh_ok _,
    p2DecoderOk_of_p1 rfl rfl rfl,
    unusedInP1_reset.unusedOk rfl,
    ⟨by decide, fun _ p => by rw [reset_ia]; rfl⟩,
    scanOk_reset,
    fun _ => rfl⟩

end Sys2Proof.Machine
end

section
/-! PROOFS. A step runs the decoded request, and it only adds events (20_memory.md R71). `emit` is the one write that
reaches the list of events, so each operation either keeps the list (`_events`) or extends it (`_grows`). -/

namespace Sys2Proof.Machine

variable {s t u : State}

/-! ### The decoded request -/

/-- Settles O1: what the decoder answers is well formed, and `step` hands it to `exec`. -/
theorem stepRunsTheDecodedRequest : Obligations.StepRunsTheDecodedRequest := by
  refine ⟨fun s r rest c i hin hctx hdec => ⟨decode_wf c r.bytes i hdec, ?_⟩, fun s hin => ?_⟩
  · simp only [step, hin, hctx, hdec, takeRequest]
  · simp only [step, hin]

/-! ### Growing lists of events -/

/-- The events of `s` are the first of the events of `t`. -/
def EventsGrow (s t : State) : Prop := s.events <+: t.events

theorem eventsGrow_iff (s t : State) : EventsGrow s t ↔ ∃ more, t.events = s.events ++ more := by
  simp only [EventsGrow, List.IsPrefix, eq_comm]

theorem EventsGrow.refl (s : State) : EventsGrow s s := List.prefix_rfl

theorem EventsGrow.trans (h : EventsGrow s t) (h' : EventsGrow t u) : EventsGrow s u := List.IsPrefix.trans h h'

theorem EventsGrow.of_eq (h : t.events = s.events) : EventsGrow s t := by
  rw [EventsGrow, h]

theorem EventsGrow.of_append {es : List Event} (h : t.events = s.events ++ es) : EventsGrow s t :=
  ⟨es, h.symm⟩

theorem EventsGrow.then_kept (h : EventsGrow s t) (h' : u.events = t.events) : EventsGrow s u := h.trans (.of_eq h')

theorem EventsGrow.after_kept (h : EventsGrow t u) (h' : t.events = s.events) : EventsGrow s u :=
  EventsGrow.trans (.of_eq h') h

/-- Every encoder invocation ends with a write of the transient encoder state. -/
theorem EventsGrow.then_setEnc (e : EncState) (h : EventsGrow s t) : EventsGrow s (setEnc e t) := h.then_kept rfl

theorem emit_grows (e : Event) (s : State) : EventsGrow s (emit e s) := .of_append rfl

/-! ### The Protocol 1 decoder -/

theorem p1Overflow_grows (i : MaskPort) (s : State) : EventsGrow s (p1Overflow i s) := .of_append rfl

/-- An append that goes on, or recovers from the overflow. -/
theorem append_grows (i : MaskPort) (b : Byte) (s : State) (next : State → State)
    (hnext : ∀ t : State, EventsGrow t (next t)) :
    EventsGrow s (match append i.port b s with
      | none => p1Overflow i s
      | some t => next t) := by
  rcases append_eq i.port b s with ⟨_, h⟩ | ⟨_, h⟩
  · rw [h]; exact p1Overflow_grows i s
  · rw [h]; exact (hnext _).after_kept rfl

theorem appendDeliverable_grows (i : MaskPort) (b : Byte) (s : State) : EventsGrow s (appendDeliverable i b s) :=
  append_grows i b s _ fun _ => .of_eq rfl

theorem appendCounted_grows (i : MaskPort) (b : Byte) (s : State) : EventsGrow s (appendCounted i b s) :=
  append_grows i b s _ fun _ => .of_eq rfl

theorem p1Status_grows (b : Byte) (i : MaskPort) (s : State) : EventsGrow s (p1Status b i s) :=
  (appendDeliverable_grows i b _).after_kept rfl

theorem p1Sysex_grows (i : MaskPort) (s : State) : EventsGrow s (p1Sysex i s) :=
  (appendDeliverable_grows i sysexBegin _).after_kept rfl

theorem p1RunningStatus_grows (b : Byte) (i : MaskPort) (s : State) : EventsGrow s (p1RunningStatus b i s) :=
  append_grows i _ s _ fun _ => (appendCounted_grows i b _).after_kept rfl

theorem appendAndClassify_grows (b : Byte) (i : MaskPort) (s : State) : EventsGrow s (appendAndClassify b i s) := by
  unfold appendAndClassify
  split
  · split
    · exact p1Status_grows b i s
    · exact p1Sysex_grows i s
    · exact appendDeliverable_grows i b s
  · split
    · exact appendCounted_grows i b s
    · split
      · exact p1RunningStatus_grows b i s
      · exact appendDeliverable_grows i b s

@[simp] theorem leaveData_events (s : State) : (leaveData s).events = s.events := by
  unfold leaveData
  split <;> rfl

theorem payloadStep_grows (classify : MaskPort → State → State)
    (hcl : ∀ (i : MaskPort) (t : State), EventsGrow t (classify i t)) (s : State) :
    EventsGrow s (payloadStep classify s) := by
  rcases payloadStep_eq classify s with ⟨_, h⟩ | ⟨i, _, ⟨_, h⟩ | ⟨_, h⟩⟩
  · rw [h]; exact .refl s
  · rw [h]; exact .of_eq (leaveData_events _)
  · rw [h]
    exact ((hcl i (takePort i s)).after_kept rfl).then_kept (leaveData_events _)

theorem p1Byte_grows (b : Byte) (s : State) : EventsGrow s (p1Byte b s) := by
  unfold p1Byte
  split
  · exact payloadStep_grows _ (appendAndClassify_grows b) s
  · split <;> exact .of_eq rfl

theorem scanBytes_grows (byteStep : Byte → State → State)
    (hstep : ∀ (b : Byte) (t : State), EventsGrow t (byteStep b t))
    (bytes : List Byte) (s : State) : EventsGrow s (scanBytes byteStep bytes s) :=
  scanBytes_keeps (EventsGrow s) byteStep (fun b t h => (h.trans (hstep b t)).then_kept rfl) bytes s (.refl s)

theorem deliverPort_grows (p : Port) (s : State) : EventsGrow s (deliverPort p s) := by
  rcases deliverPort_eq p s with ⟨_, h⟩ | ⟨_, h⟩
  · rw [h]; exact .refl s
  · rw [h]; exact .of_append rfl

theorem deliverAll_grows (s : State) : EventsGrow s (deliverAll s) :=
  deliverAll_keeps (EventsGrow s) (fun p t h => h.trans (deliverPort_grows p t)) s (.refl s)

theorem p1Decode_grows (pkt : List Byte) (s : State) : EventsGrow s (p1Decode pkt s) := by
  unfold p1Decode
  split
  · exact .refl s
  · have hstart : EventsGrow s (setCursor 2 (setScan ScanState.init s)) := .of_eq rfl
    have hscan := hstart.trans (scanBytes_grows p1Byte p1Byte_grows (pkt.drop 2) _)
    exact (hscan.trans (deliverAll_grows _)).then_kept (by simp)

/-! ### The Protocol 2 decoder -/

theorem P2Act.grows {W : Prop} (h : P2Act W s t) : EventsGrow s t := by
  cases h with
  | report e => exact emit_grows e s
  | select | move | deselect | record => exact .of_eq rfl

theorem P2Row.grows {W : Prop} (h : P2Row W s t) : EventsGrow s t :=
  chain_keeps (EventsGrow s) (fun _ _ hact hs => hs.trans hact.grows) h.acts (.refl s)

/-- A byte that the parser does not ignore runs a row. -/
theorem p2Byte_row (b : Byte) (s : State) : p2Byte b s = s ∨ P2Row False s (p2Byte b s) := by
  have onPort (f : Port → State → State) (hf : ∀ p, s.selectedPort = some p → P2Row False s (f p s)) :
      withSelected f s = s ∨ P2Row False s (withSelected f s) := by
    unfold withSelected
    split
    · exact .inl rfl
    · rename_i p hp; exact .inr (hf p hp)
  unfold p2Byte
  split
  · exact .inl rfl
  · split
    · split
      · exact .inr (.marker s)
      · exact .inl rfl
    · split
      · rename_i p hp
        obtain ⟨hval, hlt⟩ := (validPort_some _ _ _).1 hp
        exact .inr (.selectValid s p (by omega))
      · exact .inr (.selectInvalid s b)
    · rename_i hst
      split
      · exact onPort _ fun p hp => .dataStatus s p b hst hp False.elim
      · exact onPort _ fun p hp => .dataData s p b hst hp
    · rename_i hst; exact onPort _ fun p hp => .fixedByte s p b hst hp
    · rename_i hst
      split
      · exact onPort _ fun p hp => .sysexEnd s p hst hp
      · exact onPort _ fun p hp => .sysexByte s p b hst hp

theorem p2Byte_grows (b : Byte) (s : State) : EventsGrow s (p2Byte b s) := by
  rcases p2Byte_row b s with h | h
  · rw [h]; exact .refl s
  · exact h.grows

theorem p2Decode_grows (pkt : List Byte) (s : State) : EventsGrow s (p2Decode pkt s) := by
  have hstart : EventsGrow s (setCursor 1 s) := .of_eq rfl
  exact (hstart.trans (scanBytes_grows p2Byte p2Byte_grows _ _)).then_kept rfl

/-! ### The Protocol 2 output FIFO -/

theorem pushOne_grows (q : Port) (b : Byte) (classify : OutFifo → OutFifo) (s : State) :
    EventsGrow s (pushOne q b classify s) := by
  rcases pushOne_eq q b classify s with ⟨_, h⟩ | ⟨_, h⟩
  · rw [h]; exact .of_append rfl
  · rw [h]; exact .of_eq rfl

theorem fifoPush_grows (q : Port) (bytes : List Byte) (s : State) : EventsGrow s (fifoPush q bytes s) :=
  fifoPush_keeps (EventsGrow s) q (fun t h => h.trans (emit_grows _ t)) (fun _ _ h _ => h.then_kept rfl) bytes s (.refl s)

/-! ### The Protocol 2 encoder -/

@[simp] theorem emitSlot_events (b : Byte) (s : State) : (emitSlot b s).events = s.events := by
  rw [emitSlot_eq]

@[simp] theorem padGroup_events (s : State) : (padGroup s).events = s.events := by
  unfold padGroup
  generalize group = left
  induction left generalizing s with
  | zero => rfl
  | succ left ih =>
    rw [padSlots]
    split
    · rfl
    · rw [ih, emitSlot_events]

@[simp] theorem emitMarker_events (q : Port) (s : State) : (emitMarker q s).events = s.events := by
  simp [emitMarker]

@[simp] theorem emitSwitchPort_events (q : Port) (s : State) : (emitSwitchPort q s).events = s.events := by
  simp [emitSwitchPort]

@[simp] theorem emitPrime_events (q : Port) (s : State) : (emitPrime q s).events = s.events := by
  simp [emitPrime]

@[simp] theorem switchTo_events (q : Port) (s : State) : (switchTo q s).events = s.events := by
  unfold switchTo prime
  split <;> simp [emitSwitchMarker]

@[simp] theorem emitFifoByte_events (q : Port) (s : State) : (emitFifoByte q s).events = s.events := by
  simp [emitFifoByte]

@[simp] theorem drainPort_events (q : Port) (s : State) : (drainPort q s).events = s.events :=
  drainLoop_keeps (fun t => t.events = s.events) q (fun t h _ _ _ => (emitFifoByte_events q t).trans h)
    (fun t h _ _ _ => (padGroup_events t).trans h) (fun t h _ _ _ => (switchTo_events q t).trans h) _ s rfl

@[simp] theorem pack_events (s : State) : (pack s).events = s.events := by
  have hvisit : (visitPorts (visitOrder s) s).events = s.events :=
    visitPorts_keeps (fun t => t.events = s.events) _ (fun q t _ h => (drainPort_events q t).trans h) s rfl
  unfold pack
  dsimp only
  split
  · rw [padGroup_events, hvisit]
  · exact hvisit

theorem submit_grows (variantArg : Byte) (subframes : List (Nat × Nat)) (s : State) :
    EventsGrow s (submit variantArg subframes s) := by
  rw [submit_eq]; exact .of_append rfl

theorem p2Submit_grows (s : State) : EventsGrow s (p2Submit s) := by
  unfold p2Submit
  split
  · exact .refl s
  · exact submit_grows _ _ s

theorem p2Pull_grows (s : State) : EventsGrow s (p2Pull s) :=
  foldl_keeps (EventsGrow s) p2PullPort _
    (fun q t _ h => (h.trans (emit_grows _ t)).trans (fifoPush_grows q _ _)) s (.refl s)

theorem p2Encode_grows (s : State) : EventsGrow s (p2Encode s) := by
  have hstart : EventsGrow s (setEnc EncState.init s) := .of_eq rfl
  have hpack := (hstart.trans (p2Pull_grows _)).then_kept (pack_events _)
  exact (hpack.trans (p2Submit_grows _)).then_setEnc _

/-! ### The Protocol 1 encoder -/

theorem p1Pull_grows (s : State) : EventsGrow s (p1Pull s) :=
  foldl_keeps (EventsGrow s) p1PullPort _ (fun _ t _ h => (h.trans (emit_grows _ t)).then_kept rfl) s (.refl s)

@[simp] theorem p1Group_events (m : Byte) (s : State) : (p1Group m s).events = s.events := by
  have fold (ports : List MaskPort) : ∀ t : State,
      (ports.foldl (fun t i => if m.getLsbD i.val then p1EmitPayload i t else t) t).events = t.events := by
    induction ports with
    | nil => exact fun _ => rfl
    | cons i ports ih =>
      intro t
      rw [List.foldl_cons, ih]
      split <;> rfl
  exact fold maskPorts (p1EmitMask m s)

@[simp] theorem p1Groups_events (left : Nat) (s : State) : (p1Groups left s).events = s.events :=
  p1Groups_keeps (fun t => t.events = s.events) (fun _ h _ => h) (fun t h _ => (p1Group_events _ t).trans h) left s rfl

theorem p1Finish_grows (s : State) : EventsGrow s (p1Finish s) :=
  (submit_grows 1 _ (p1EmitEnd (p1EmitEnd s))).after_kept (by simp)

theorem p1Encode_grows (s : State) : EventsGrow s (p1Encode s) := by
  have hstart : EventsGrow s (setEnc EncState.init s) := .of_eq rfl
  have hheader : EventsGrow s (p1EmitRsvd (p1EmitSeq (p1Pull (setEnc EncState.init s)))) :=
    (hstart.trans (p1Pull_grows _)).then_kept (by simp [p1EmitRsvd, p1EmitSeq])
  have hgroups := hheader.then_kept (p1Groups_events p1Offsets _)
  unfold p1Encode
  dsimp only
  refine EventsGrow.then_setEnc _ ?_
  split
  · exact hgroups
  · exact hgroups.trans (p1Finish_grows _)

/-! ### The host operations -/

theorem decodePacket_grows (pkt : List Byte) (s : State) : EventsGrow s (decodePacket pkt s) := by
  unfold decodePacket
  split
  · exact p1Decode_grows pkt s
  · exact p2Decode_grows pkt s

theorem encodePacket_grows (s : State) : EventsGrow s (encodePacket s) := by
  unfold encodePacket
  split
  · exact p1Encode_grows s
  · exact p2Encode_grows s

theorem receive_grows (pkt : List Byte) (s : State) : EventsGrow s (receive pkt s) := by
  have hstart : EventsGrow s (setRxPosted false s) := .of_eq rfl
  exact (hstart.trans (decodePacket_grows pkt _)).trans (.of_append rfl)

theorem encodeOrRefuse_grows (before s : State) (h : s.events = before.events) :
    EventsGrow before (encodeOrRefuse before s) := by
  unfold encodeOrRefuse
  split
  · exact ((EventsGrow.of_eq h).trans (encodePacket_grows s)).then_kept rfl
  · exact .of_eq rfl

theorem execReset_grows (cfg : BitVec 16) (h : execReset cfg s = .next t) : EventsGrow s t := by
  rcases execReset_next cfg h with rfl | ⟨c, rfl⟩
  · exact .of_eq rfl
  · exact .of_append rfl

theorem execRxPacket_grows (pkt : List Byte) (h : execRxPacket pkt s = .next t) : EventsGrow s t := by
  unfold execRxPacket at h
  split at h
  · split at h <;> cases h
    · exact (receive_grows pkt s).then_kept rfl
    · exact .of_eq rfl
  · cases h; exact .of_eq rfl

theorem execTxKick_grows (h : execTxKick s = .next t) : EventsGrow s t := by
  unfold execTxKick at h
  split at h
  · split at h <;> cases h
    · exact .of_eq rfl
    · exact encodeOrRefuse_grows s s rfl
  · cases h; exact .of_eq rfl

theorem execTxDone_grows (ok : Bool) (h : execTxDone ok s = .next t) : EventsGrow s t := by
  unfold execTxDone at h
  split at h
  · split at h <;> cases h
    · exact encodeOrRefuse_grows s _ rfl
    · exact .of_eq rfl
  · cases h; exact .of_eq rfl

/-! ### The rows -/

theorem queryLength_grows (b : Byte)
    (h : Host.Outcome.next (queryLength b s) = (.next t : Host.Outcome State Fault Refusal)) : EventsGrow s t := by
  cases h
  exact .of_eq rfl

theorem whenSelected_grows {row : String} {cond : Bool} (h : whenSelected row cond u = .next t)
    (hu : EventsGrow s u) : EventsGrow s t := by
  obtain ⟨_, rfl⟩ := (whenSelected_next _ _ _ _).1 h
  exact hu

theorem onSelected_grows {row : String} {st : P2State} {f : Port → State → State}
    (h : onSelected row st f s = .next t)
    (hf : ∀ p, s.p2State = st → s.selectedPort = some p → P2Row False s (f p s)) : EventsGrow s t := by
  obtain ⟨p, hp, hin, rfl⟩ := (onSelected_next _ _ _ _ _).1 h
  obtain ⟨_, hst⟩ := of_inP2 hin
  exact (hf p hst hp).grows

theorem execP2SelValid_grows (b : Byte) (h : execP2SelValid b s = .next t) : EventsGrow s t := by
  unfold execP2SelValid at h
  split at h
  · cases h
  · exact whenSelected_grows h (.of_eq rfl)

theorem execP2outPrime_grows (b : Byte) (h : execP2outPrime b s = .next t) : EventsGrow s t := by
  unfold execP2outPrime at h
  split at h
  · cases h
  · exact whenSelected_grows h (.of_eq (emitPrime_events _ s))

theorem execP2outFifo_grows (b : Byte) (h : execP2outFifo b s = .next t) : EventsGrow s t := by
  unfold execP2outFifo at h
  split at h
  · cases h
  · exact whenSelected_grows h (.of_eq (emitFifoByte_events _ s))

theorem execP1outPayload_grows (b : Byte) (h : execP1outPayload b s = .next t) : EventsGrow s t := by
  unfold execP1outPayload at h
  split at h
  · cases h
  · exact whenSelected_grows h (.of_eq rfl)

/-! ### Every instruction and every step -/

theorem exec_grows (i : Instr) (h : exec i s = .next t) : EventsGrow s t := by
  cases i with
  | reset cfg => exact execReset_grows cfg h
  | rxPacket pkt => exact execRxPacket_grows pkt h
  | txKick => exact execTxKick_grows h
  | txDone ok => exact execTxDone_grows ok h
  | lenData | lenChan8 | lenChan9 | lenChanA | lenChanB | lenChanC | lenChanD | lenChanE | lenSysex | lenSysF1
  | lenSysF2 | lenSysF3 | lenSysF4 | lenSysF5 | lenSysF6 | lenSysF7 | lenSysF8 | lenSysF9 | lenSysFA | lenSysFB | lenSysFC
  | lenSysFD | lenSysFE | lenFF => exact queryLength_grows _ h
  | p1Mask0 | p1Mask | p2Fill | p2WaitMark | p2WaitOther | p2outTrailer | p1outSeq | p1outRsvd | p1outMask | p1outEnd =>
    exact whenSelected_grows h (.of_eq rfl)
  | p1PayStatus b => exact whenSelected_grows h (payloadStep_grows _ (p1Status_grows b) s)
  | p1PaySysex => exact whenSelected_grows h (payloadStep_grows _ p1Sysex_grows s)
  | p1PayNac => exact whenSelected_grows h (payloadStep_grows _ (fun i => appendDeliverable_grows i nonCommand) s)
  | p1PayData b => exact whenSelected_grows h (payloadStep_grows _ (fun i => appendCounted_grows i b) s)
  | p1PayRs b => exact whenSelected_grows h (payloadStep_grows _ (p1RunningStatus_grows b) s)
  | p1PayNoctx b => exact whenSelected_grows h (payloadStep_grows _ (fun i => appendDeliverable_grows i b) s)
  | p2SelValid b => exact execP2SelValid_grows b h
  | p2SelInvalid b => exact whenSelected_grows h (P2Row.selectInvalid (W := False) s b).grows
  | p2DataStatus b => exact onSelected_grows h fun p hst hp => .dataStatus s p b hst hp False.elim
  | p2DataData b => exact onSelected_grows h fun p hst hp => .dataData s p b hst hp
  | p2Fixed b => exact onSelected_grows h fun p hst hp => .fixedByte s p b hst hp
  | p2SysexEnd => exact onSelected_grows h fun p hst hp => .sysexEnd s p hst hp
  | p2SysexByte b => exact onSelected_grows h fun p hst hp => .sysexByte s p b hst hp
  | fifoSysex q | fifoSysexEnd q | fifoStatus q | fifoNac q | fifoDataSpan q | fifoDataNospan q =>
    exact whenSelected_grows h (pushOne_grows q _ _ s)
  | p2outMarker q => exact whenSelected_grows h (.of_eq (emitMarker_events q s))
  | p2outPort q => exact whenSelected_grows h (.of_eq (emitSwitchPort_events q s))
  | p2outPrime b => exact execP2outPrime_grows b h
  | p2outFifo b => exact execP2outFifo_grows b h
  | p2outPad | p2outFinalPad => exact whenSelected_grows h (.of_eq (padGroup_events s))
  | p1outPayload b => exact execP1outPayload_grows b h

/-- Settles O60: taking the request keeps the events, and every instruction only adds some. -/
theorem eventsAreOnlyAdded : Obligations.EventsAreOnlyAdded := by
  intro s t h
  rw [← eventsGrow_iff]
  rcases (step_next s t).1 h with ⟨_, rfl⟩ | ⟨r, rest, _, i, _, _, _, hexec⟩
  · exact .refl _
  · have htake : EventsGrow s (takeRequest r rest s) := .of_eq rfl
    exact htake.trans (exec_grows i hexec)

end Sys2Proof.Machine
end

section
/-! PROOFS. The decoder and the encoder of spec/opcode_table.json are inverse to each other, context by context
(30_encoding.md R97, R99). -/

namespace Sys2Proof.Machine

/-! ### The row of each byte -/

theorem ne_of_isData (b : Byte) (h : isData b = true) : b ≠ sysexBegin ∧ b ≠ sysexEnd ∧ b ≠ nonCommand := by
  revert b; decide

theorem decodeP1Mask_nonzero (b : Byte) (h : (Instr.p1Mask b).wf = true) : decodeP1Mask b = .p1Mask b :=
  if_neg (bne_iff_ne.1 h)

theorem decodeP1Payload_status (n : Nat) (last : LenClass) (b : Byte) (h : (Instr.p1PayStatus b).wf = true) :
    decodeP1Payload n last b = .p1PayStatus b := by
  simp only [Instr.wf, Bool.and_eq_true, bne_iff_ne] at h
  obtain ⟨⟨hs, h0⟩, hf⟩ := h
  rw [decodeP1Payload, if_neg h0, if_neg hf, if_pos hs]

/-- Which row a data byte of `P1.payload` has is said by the record of its port (41_p1_decoder.md R138 to R140). -/
theorem decodeP1Payload_data (n : Nat) (last : LenClass) (b : Byte) (h : isData b = true) :
    decodeP1Payload n last b =
      if 0 < n then .p1PayData b else if hasRunningStatus last then .p1PayRs b else .p1PayNoctx b := by
  obtain ⟨h0, _, hf⟩ := ne_of_isData b h
  have hs : ¬ isStatus b = true := by simpa using h
  rw [decodeP1Payload, if_neg h0, if_neg hf, if_neg hs]

theorem decodeP2_waitOther (n : PortCount) (b : Byte) (h : (Instr.p2WaitOther b).wf = true) :
    decodeP2 .waitMarker n b = .p2WaitOther b := by
  simp only [Instr.wf, Bool.and_eq_true, bne_iff_ne] at h
  obtain ⟨hm, hf⟩ := h
  rw [decodeP2, if_neg hf]
  exact if_neg hm

/-- Which row an index byte has is said by `N_IN` (43_p2_decoder.md R168, R169). -/
theorem decodeP2_portSelect (n : PortCount) (b : Byte) (h : b ≠ filler) :
    decodeP2 .portSelect n b = if b.toNat < n.val then .p2SelValid b else .p2SelInvalid b := by
  rw [decodeP2, if_neg h]
  by_cases hb : b.toNat < n.val <;> simp [validPort, hb]

theorem decodeP2_data (n : PortCount) (b : Byte) (h : b ≠ filler) :
    decodeP2 .data n b = if isStatus b then .p2DataStatus b else .p2DataData b := by
  rw [decodeP2, if_neg h]

theorem decodeP2_fixed (n : PortCount) (b : Byte) (h : b ≠ filler) : decodeP2 .fixedLen n b = .p2Fixed b := by
  rw [decodeP2, if_neg h]

theorem decodeP2_sysexByte (n : PortCount) (b : Byte) (h : (Instr.p2SysexByte b).wf = true) :
    decodeP2 .sysEx n b = .p2SysexByte b := by
  simp only [Instr.wf, Bool.and_eq_true, bne_iff_ne] at h
  obtain ⟨he, hf⟩ := h
  rw [decodeP2, if_neg hf]
  exact if_neg he

theorem decodeFifo_status (q : Port) (span : Nat) (b : Byte) (h : (Instr.fifoStatus q b).wf = true) :
    decodeFifo q span b = .fifoStatus q b := by
  simp only [Instr.wf, Bool.and_eq_true, bne_iff_ne] at h
  obtain ⟨⟨⟨hs, h0⟩, h7⟩, hf⟩ := h
  rw [decodeFifo, if_neg h0, if_neg h7, if_neg hf, if_pos hs]

/-- Which row a pushed data byte has is said by the span of its FIFO (44_p2_fifo.md R196, R197). -/
theorem decodeFifo_data (q : Port) (span : Nat) (b : Byte) (h : isData b = true) :
    decodeFifo q span b = if 0 < span then .fifoDataSpan q b else .fifoDataNospan q b := by
  obtain ⟨h0, h7, hf⟩ := ne_of_isData b h
  have hs : ¬ isStatus b = true := by simpa using h
  rw [decodeFifo, if_neg h0, if_neg h7, if_neg hf, if_neg hs]

theorem outPort?_portByte (q : Port) : outPort? (portByte q) = some q := by
  revert q; decide

theorem portByte_of_outPort? (b : Byte) (q : Port) (h : outPort? b = some q) : portByte q = b := by
  obtain ⟨_, hv⟩ := (validPort_some _ b q).1 h
  exact BitVec.eq_of_toNat_eq ((portByte_toNat q).trans hv.symm)

/-! ### From an instruction to its bytes and back, one context at a time -/

theorem decode_encode_host (i : Instr) (h : Context.host.admits i = true) : decode .host (encode i) = .ok i := by
  cases i with
  | reset cfg => exact congrArg (fun w => Except.ok (Instr.reset w)) BitVec.extractLsb'_append_extractLsb'
  | rxPacket | txKick => rfl
  | txDone ok => cases ok <;> rfl
  | _ => cases h

theorem decode_encode_lengthOf (i : Instr) (hwf : i.wf = true) (h : Context.lengthOf.admits i = true) :
    decode .lengthOf (encode i) = .ok i := by
  cases i with
  | lenData b | lenChan8 b | lenChan9 b | lenChanA b | lenChanB b | lenChanC b | lenChanD b | lenChanE b =>
    clear h
    exact congrArg Except.ok (by revert b; decide)
  | lenSysex | lenSysF1 | lenSysF2 | lenSysF3 | lenSysF4 | lenSysF5 | lenSysF6 | lenSysF7 | lenSysF8 | lenSysF9
  | lenSysFA | lenSysFB | lenSysFC | lenSysFD | lenSysFE | lenFF => rfl
  | _ => cases h

theorem decode_encode_p1Mask (i : Instr) (hwf : i.wf = true) (h : Context.p1Mask.admits i = true) :
    decode .p1Mask (encode i) = .ok i := by
  cases i with
  | p1Mask0 => rfl
  | p1Mask b => exact congrArg Except.ok (decodeP1Mask_nonzero b hwf)
  | _ => cases h

theorem decode_encode_p1Payload (n : Nat) (last : LenClass) (i : Instr) (hwf : i.wf = true)
    (h : (Context.p1Payload n last).admits i = true) : decode (.p1Payload n last) (encode i) = .ok i := by
  cases i with
  | p1PaySysex | p1PayNac => rfl
  | p1PayStatus b => exact congrArg Except.ok (decodeP1Payload_status n last b hwf)
  | p1PayData b =>
    have hn : 0 < n := of_decide_eq_true h
    exact congrArg Except.ok ((decodeP1Payload_data n last b hwf).trans (if_pos hn))
  | p1PayRs b | p1PayNoctx b =>
    simp only [Context.admits, Bool.and_eq_true, decide_eq_true_eq] at h
    obtain ⟨rfl, hrun⟩ := h
    refine congrArg Except.ok ((decodeP1Payload_data 0 last b hwf).trans ?_)
    simpa using hrun
  | _ => cases h

theorem decode_encode_p2 (st : P2State) (n : PortCount) (i : Instr) (hwf : i.wf = true)
    (h : (Context.p2 st n).admits i = true) : decode (.p2 st n) (encode i) = .ok i := by
  cases i with
  | p2Fill => rfl
  | p2WaitMark =>
    obtain rfl : st = .waitMarker := eq_of_beq h
    rfl
  | p2WaitOther b =>
    obtain rfl : st = .waitMarker := eq_of_beq h
    exact congrArg Except.ok (decodeP2_waitOther n b hwf)
  | p2SelValid b | p2SelInvalid b =>
    simp only [Context.admits, Bool.and_eq_true, beq_iff_eq, decide_eq_true_eq] at h
    obtain ⟨rfl, hb⟩ := h
    refine congrArg Except.ok ((decodeP2_portSelect n b (bne_iff_ne.1 hwf)).trans ?_)
    simp [hb]
  | p2DataStatus b =>
    obtain rfl : st = .data := eq_of_beq h
    simp only [Instr.wf, Bool.and_eq_true, bne_iff_ne] at hwf
    obtain ⟨hs, hf⟩ := hwf
    exact congrArg Except.ok ((decodeP2_data n b hf).trans (if_pos hs))
  | p2DataData b =>
    obtain rfl : st = .data := eq_of_beq h
    obtain ⟨_, _, hf⟩ := ne_of_isData b hwf
    have hs : ¬ isStatus b = true := by simpa [Instr.wf] using hwf
    exact congrArg Except.ok ((decodeP2_data n b hf).trans (if_neg hs))
  | p2Fixed b =>
    obtain rfl : st = .fixedLen := eq_of_beq h
    exact congrArg Except.ok (decodeP2_fixed n b (bne_iff_ne.1 hwf))
  | p2SysexEnd =>
    obtain rfl : st = .sysEx := eq_of_beq h
    rfl
  | p2SysexByte b =>
    obtain rfl : st = .sysEx := eq_of_beq h
    exact congrArg Except.ok (decodeP2_sysexByte n b hwf)
  | _ => cases h

theorem decode_encode_fifoPush (q : Port) (span : Nat) (i : Instr) (hwf : i.wf = true)
    (h : (Context.fifoPush q span).admits i = true) : decode (.fifoPush q span) (encode i) = .ok i := by
  cases i with
  | fifoSysex q' | fifoSysexEnd q' | fifoNac q' =>
    obtain rfl : q = q' := eq_of_beq h
    rfl
  | fifoStatus q' b =>
    obtain rfl : q = q' := eq_of_beq h
    exact congrArg Except.ok (decodeFifo_status q span b hwf)
  | fifoDataSpan q' b | fifoDataNospan q' b =>
    simp only [Context.admits, Bool.and_eq_true, beq_iff_eq, decide_eq_true_eq] at h
    obtain ⟨rfl, hn⟩ := h
    refine congrArg Except.ok ((decodeFifo_data q span b hwf).trans ?_)
    simp [hn]
  | _ => cases h

theorem decode_encode_p2Out (slot : P2Slot) (i : Instr) (hwf : i.wf = true)
    (h : (Context.p2Out slot).admits i = true) : decode (.p2Out slot) (encode i) = .ok i := by
  cases i with
  | p2outMarker | p2outFifo | p2outPad | p2outFinalPad | p2outTrailer =>
    obtain ⟨rfl⟩ : slot = _ := by simpa [Context.admits] using h
    rfl
  | p2outPort q =>
    obtain rfl : slot = .switchPort := by simpa [Context.admits] using h
    simp [decode, encode, decodeToken, decodeP2Out, outPort?_portByte]
  | p2outPrime b =>
    obtain rfl : slot = .priming := by simpa [Context.admits] using h
    exact if_pos hwf
  | _ => cases h

theorem decode_encode_p1Out (pos : P1Pos) (i : Instr) (hwf : i.wf = true)
    (h : (Context.p1Out pos).admits i = true) : decode (.p1Out pos) (encode i) = .ok i := by
  cases i with
  | p1outSeq | p1outRsvd | p1outPayload | p1outEnd =>
    obtain ⟨rfl⟩ : pos = _ := by simpa [Context.admits] using h
    rfl
  | p1outMask b =>
    obtain rfl : pos = .mask := by simpa [Context.admits] using h
    exact if_neg (bne_iff_ne.1 hwf)
  | _ => cases h

/-- Settles O2, one context at a time: the rows of a context are told apart by their bytes and the context's facts. -/
theorem decodeInvertsEncode : Obligations.DecodeInvertsEncode := by
  intro c i hwf h
  cases c with
  | host => exact decode_encode_host i h
  | lengthOf => exact decode_encode_lengthOf i hwf h
  | p1Mask => exact decode_encode_p1Mask i hwf h
  | p1Payload n last => exact decode_encode_p1Payload n last i hwf h
  | p2 st n => exact decode_encode_p2 st n i hwf h
  | fifoPush q span => exact decode_encode_fifoPush q span i hwf h
  | p2Out slot => exact decode_encode_p2Out slot i hwf h
  | p1Out pos => exact decode_encode_p1Out pos i hwf h

/-! ### From bytes to an instruction and back -/

/-- The instruction belongs to the context, and these are its bytes. -/
def RowOf (c : Context) (bytes : List Byte) (i : Instr) : Prop := c.admits i = true ∧ encode i = bytes

theorem decodeHost_rowOf (bytes : List Byte) (i : Instr) (h : decodeHost bytes = .ok i) : RowOf .host bytes i := by
  cases bytes with
  | nil => cases h
  | cons op rest =>
    unfold decodeHost at h
    dsimp only at h
    split_ifs at h with hreset hrx hkick hnone hdone hfailed hcompleted
    · split at h <;> cases h
      refine ⟨rfl, ?_⟩
      simp only [encode, BitVec.extractLsb'_append_eq_left, BitVec.extractLsb'_append_eq_right, hreset]
    · cases h
      exact ⟨rfl, by rw [hrx, encode]⟩
    · cases h
      exact ⟨rfl, by rw [hkick, hnone, encode]⟩
    · cases h
      exact ⟨rfl, by rw [hdone, hfailed]; rfl⟩
    · cases h
      exact ⟨rfl, by rw [hdone, hcompleted]; rfl⟩

theorem decodeLength_rowOf (b : Byte) : RowOf .lengthOf [b] (decodeLength b) := by
  unfold RowOf
  revert b; decide

theorem decodeP1Mask_rowOf (b : Byte) : RowOf .p1Mask [b] (decodeP1Mask b) := by
  unfold decodeP1Mask
  split
  · rename_i h; subst h; exact ⟨rfl, rfl⟩
  · exact ⟨rfl, rfl⟩

theorem decodeP1Payload_rowOf (n : Nat) (last : LenClass) (b : Byte) :
    RowOf (.p1Payload n last) [b] (decodeP1Payload n last b) := by
  unfold decodeP1Payload
  split
  · rename_i h; subst h; exact ⟨rfl, rfl⟩
  · split
    · rename_i h; subst h; exact ⟨rfl, rfl⟩
    · split
      · exact ⟨rfl, rfl⟩
      · split
        · rename_i hn; exact ⟨decide_eq_true hn, rfl⟩
        · rename_i hn
          have hzero : n = 0 := Nat.eq_zero_of_not_pos hn
          split
          · rename_i hr; exact ⟨by simp [Context.admits, hzero, hr], rfl⟩
          · rename_i hr; exact ⟨by simp [Context.admits, hzero, hr], rfl⟩

theorem decodeP2_rowOf (st : P2State) (n : PortCount) (b : Byte) : RowOf (.p2 st n) [b] (decodeP2 st n b) := by
  unfold decodeP2
  split
  · rename_i h; subst h; exact ⟨rfl, rfl⟩
  · cases st with
    | waitMarker =>
      dsimp only
      split
      · rename_i h; subst h; exact ⟨rfl, rfl⟩
      · exact ⟨rfl, rfl⟩
    | portSelect =>
      dsimp only
      split
      · rename_i h
        obtain ⟨p, hp⟩ := Option.isSome_iff_exists.1 h
        obtain ⟨hb, _⟩ := (validPort_some n b p).1 hp
        exact ⟨decide_eq_true hb, rfl⟩
      · rename_i h
        have hb : n.val ≤ b.toNat := (validPort_none n b).1 (by simpa using h)
        exact ⟨decide_eq_true hb, rfl⟩
    | data => dsimp only; split <;> exact ⟨rfl, rfl⟩
    | fixedLen => exact ⟨rfl, rfl⟩
    | sysEx =>
      dsimp only
      split
      · rename_i h; subst h; exact ⟨rfl, rfl⟩
      · exact ⟨rfl, rfl⟩

theorem decodeFifo_rowOf (q : Port) (span : Nat) (b : Byte) : RowOf (.fifoPush q span) [b] (decodeFifo q span b) := by
  have hq : (q == q) = true := beq_self_eq_true q
  unfold decodeFifo
  split
  · rename_i h; subst h; exact ⟨hq, rfl⟩
  · split
    · rename_i h; subst h; exact ⟨hq, rfl⟩
    · split
      · rename_i h; subst h; exact ⟨hq, rfl⟩
      · split
        · exact ⟨hq, rfl⟩
        · split
          · rename_i hn; exact ⟨by simpa [Context.admits] using hn, rfl⟩
          · rename_i hn; exact ⟨by simpa [Context.admits] using hn, rfl⟩

theorem fixedByte_rowOf (c : Context) (expected b : Byte) (i j : Instr) (hi : RowOf c [expected] i)
    (h : fixedByte expected b i = .ok j) : RowOf c [b] j := by
  unfold fixedByte at h
  split at h <;> cases h
  rename_i hb
  exact hb ▸ hi

theorem decodeP2Out_rowOf (slot : P2Slot) (b : Byte) (i : Instr) (h : decodeP2Out slot b = .ok i) :
    RowOf (.p2Out slot) [b] i := by
  cases slot with
  | switchMarker q => exact fixedByte_rowOf _ _ b _ i ⟨by simp [Context.admits], rfl⟩ h
  | deferredPad | finalPad | groupTrailer => exact fixedByte_rowOf _ _ b _ i ⟨rfl, rfl⟩ h
  | fifoByte => cases h; exact ⟨rfl, rfl⟩
  | switchPort =>
    simp only [decodeP2Out] at h
    split at h <;> cases h
    rename_i q hq
    exact ⟨rfl, congrArg (fun x => [x]) (portByte_of_outPort? b q hq)⟩
  | priming =>
    simp only [decodeP2Out] at h
    split at h <;> cases h
    exact ⟨rfl, rfl⟩

theorem decodeP1Out_rowOf (pos : P1Pos) (b : Byte) (i : Instr) (h : decodeP1Out pos b = .ok i) :
    RowOf (.p1Out pos) [b] i := by
  cases pos with
  | headerSeq | payload => cases h; exact ⟨rfl, rfl⟩
  | headerRsvd | endMarker => exact fixedByte_rowOf _ _ b _ i ⟨rfl, rfl⟩ h
  | mask =>
    simp only [decodeP1Out] at h
    split at h <;> cases h
    exact ⟨rfl, rfl⟩

/-- A context of one token reads what its byte function reads. -/
theorem decodeToken_rowOf (c : Context) (f : Byte → Except DecodeError Instr)
    (hf : ∀ b i, f b = .ok i → RowOf c [b] i) (bytes : List Byte) (i : Instr) (h : decodeToken f bytes = .ok i) :
    RowOf c bytes i := by
  unfold decodeToken at h
  split at h
  · cases h
  · exact hf _ i h
  · cases h

theorem decodeByte_rowOf (c : Context) (f : Byte → Instr) (hf : ∀ b, RowOf c [b] (f b)) (bytes : List Byte)
    (i : Instr) (h : decodeByte f bytes = .ok i) : RowOf c bytes i :=
  decodeToken_rowOf c _ (fun b j hj => by cases hj; exact hf b) bytes i h

theorem decode_rowOf (c : Context) (bytes : List Byte) (i : Instr) (h : decode c bytes = .ok i) :
    RowOf c bytes i := by
  cases c with
  | host => exact decodeHost_rowOf bytes i h
  | lengthOf => exact decodeByte_rowOf _ _ decodeLength_rowOf bytes i h
  | p1Mask => exact decodeByte_rowOf _ _ decodeP1Mask_rowOf bytes i h
  | p1Payload n last => exact decodeByte_rowOf _ _ (decodeP1Payload_rowOf n last) bytes i h
  | p2 st n => exact decodeByte_rowOf _ _ (decodeP2_rowOf st n) bytes i h
  | fifoPush q span => exact decodeByte_rowOf _ _ (decodeFifo_rowOf q span) bytes i h
  | p2Out slot => exact decodeToken_rowOf _ _ (decodeP2Out_rowOf slot) bytes i h
  | p1Out pos => exact decodeToken_rowOf _ _ (decodeP1Out_rowOf pos) bytes i h

/-- Settles O3: the decoder answers only well-formed rows of its context, with the bytes it read. -/
theorem encodeInvertsDecode : Obligations.EncodeInvertsDecode := fun c bytes i h =>
  ⟨decode_wf c bytes i h, decode_rowOf c bytes i h⟩

/-! ### The byte grammar -/

/-- Settles O4: a decoder context reads every byte (30_encoding.md R97), what it reads is a row of that byte (O3), and
any other row of the byte would be read as well (O2). -/
theorem byteGrammarIsTotal : Obligations.ByteGrammarIsTotal := by
  intro c b hc
  obtain ⟨i, hi⟩ : ∃ i, decode c [b] = .ok i := by
    rcases hc with rfl | rfl | ⟨_, _, rfl⟩ | ⟨_, _, rfl⟩ | ⟨_, _, rfl⟩ <;> exact ⟨_, rfl⟩
  obtain ⟨hwf, hadm, henc⟩ := encodeInvertsDecode c [b] i hi
  refine ⟨i, hwf, hadm, henc, fun j hj hja hje => ?_⟩
  have hread : Except.ok j = (Except.ok i : Except DecodeError Instr) := by
    rw [← decodeInvertsEncode c j hj hja, hje, hi]
  cases hread
  rfl

/-- Settles O5: each written-out word is evaluated by the decoder. -/
theorem writtenOutWordsDecode : Obligations.WrittenOutWordsDecode := by
  unfold Obligations.WrittenOutWordsDecode
  decide

end Sys2Proof.Machine
end

section
/-! PROOFS. A P2 body acts byte by byte, and no byte step reads what a packet boundary writes (30_encoding.md R86,
43_p2_decoder.md R165): two states that differ there alone run alike. -/

namespace Sys2Proof.Machine

variable {s t u : State}

/-! ### Accepted packets -/

theorem append_newEvents (h : EventsGrow s t) : s.events ++ newEvents s t = t.events :=
  List.prefix_iff_eq_append.1 h

theorem exec_rxPacket (pkt : List Byte) (ho : s.sessionOpen = true) (hr : s.rxPosted = true) :
    exec (.rxPacket pkt) s = .next (accept (receive pkt s)) := by
  simp only [exec, execRxPacket, ho, hr, if_true]

theorem eq_of_exec_rxPacket {pkt : List Byte} (ho : s.sessionOpen = true) (hr : s.rxPosted = true)
    (h : exec (.rxPacket pkt) s = .next t) : t = accept (receive pkt s) := by
  rw [exec_rxPacket pkt ho hr] at h
  cases h
  rfl

theorem receive_p2 (pkt : List Byte) (hv : s.variant = .p2) :
    receive pkt s = rearm (p2Decode pkt (setRxPosted false s)) := by
  simp only [receive, decodePacket, setRxPosted_variant, hv]

/-! ### What a byte step reads -/

/-- The events of the decoder: all but the receive requests, which stand at packet boundaries. -/
def streamEvents (s : State) : List Event := s.events.filter (fun e => e != .rxRearm)

/-- All that a P2 byte step reads is the same in `s` and `t`, and so are the decoder's events so far. -/
structure SameStream (s t : State) : Prop where
  ia : s.ia = t.ia
  p2State : s.p2State = t.p2State
  selectedPort : s.selectedPort = t.selectedPort
  nIn : s.nIn = t.nIn
  lenTable : s.lenTable = t.lenTable
  events : streamEvents s = streamEvents t

theorem SameStream.symm (h : SameStream s t) : SameStream t s :=
  ⟨h.ia.symm, h.p2State.symm, h.selectedPort.symm, h.nIn.symm, h.lenTable.symm, h.events.symm⟩

theorem SameStream.trans (h : SameStream s t) (h' : SameStream t u) : SameStream s u :=
  ⟨h.ia.trans h'.ia, h.p2State.trans h'.p2State, h.selectedPort.trans h'.selectedPort, h.nIn.trans h'.nIn,
    h.lenTable.trans h'.lenTable, h.events.trans h'.events⟩

theorem SameStream.emit (e : Event) (h : SameStream s t) : SameStream (emit e s) (emit e t) := by
  obtain ⟨hi, hst, hp, hn, hl, he⟩ := h
  refine ⟨hi, hst, hp, hn, hl, ?_⟩
  simp only [streamEvents] at he
  simp only [streamEvents, emit_events, List.filter_append, he]

theorem SameStream.setP2 (st : P2State) (p : Option Port) (h : SameStream s t) :
    SameStream (setP2 st p s) (setP2 st p t) :=
  ⟨h.ia, rfl, rfl, h.nIn, h.lenTable, h.events⟩

theorem SameStream.modIn (p : Port) (f : InRec → InRec) (h : SameStream s t) :
    SameStream (modIn p f s) (modIn p f t) :=
  ⟨by simp only [modIn_ia, h.ia], h.p2State, h.selectedPort, h.nIn, h.lenTable, h.events⟩

theorem SameStream.setCursor (n m : Nat) (h : SameStream s t) : SameStream (setCursor n s) (setCursor m t) :=
  ⟨h.ia, h.p2State, h.selectedPort, h.nIn, h.lenTable, h.events⟩

/-- How a packet starts is no part of the stream. -/
theorem SameStream.packetStart (s : State) : SameStream (Machine.setCursor 1 (setRxPosted false s)) s := by
  constructor <;> rfl

/-- How a packet ends is no part of the stream. -/
theorem SameStream.packetEnd (s : State) : SameStream (accept (rearm (Machine.setCursor 0 s))) s := by
  refine ⟨rfl, rfl, rfl, rfl, rfl, ?_⟩
  simp [streamEvents, rearm]

/-! ### Each byte step -/

theorem SameStream.p2Overflow (p : Port) (h : SameStream s t) : SameStream (p2Overflow p s) (p2Overflow p t) :=
  ((h.emit _).modIn p _).setP2 _ _

theorem SameStream.p2Complete (p : Port) (h : SameStream s t) : SameStream (p2Complete p s) (p2Complete p t) := by
  have hbytes : s.ia[p].bytes = t.ia[p].bytes := by rw [h.ia]
  unfold Machine.p2Complete
  rw [hbytes, h.selectedPort]
  exact ((h.emit _).modIn p _).setP2 _ _

theorem SameStream.p2CompleteIfFull (p : Port) (h : SameStream s t) :
    SameStream (p2CompleteIfFull p s) (p2CompleteIfFull p t) := by
  unfold Machine.p2CompleteIfFull
  rw [h.ia]
  split
  · exact h.p2Complete p
  · exact h

theorem SameStream.p2EnterFixed (p : Port) (total : Nat) (h : SameStream s t) :
    SameStream (p2EnterFixed p total s) (p2EnterFixed p total t) := by
  unfold Machine.p2EnterFixed
  rw [h.selectedPort]
  exact ((h.modIn p _).setP2 _ _).p2CompleteIfFull p

theorem SameStream.p2Classify (p : Port) (h : SameStream s t) : SameStream (p2Classify p s) (p2Classify p t) := by
  unfold Machine.p2Classify
  rw [h.ia, h.lenTable, h.selectedPort]
  split
  · exact h.setP2 _ _
  · split
    · exact h.setP2 _ _
    · exact h.p2EnterFixed p _
    · exact h.p2EnterFixed p _

/-- An append that goes on, or recovers from the overflow. -/
theorem SameStream.append (p : Port) (b : Byte) (next : State → State)
    (hnext : ∀ {x y : State}, SameStream x y → SameStream (next x) (next y)) (h : SameStream s t) :
    SameStream
      (match append p b s with
        | none => Machine.p2Overflow p s
        | some u => next u)
      (match append p b t with
        | none => Machine.p2Overflow p t
        | some u => next u) := by
  unfold Machine.append
  rw [h.ia]
  by_cases hfull : t.ia[p].length = cap
  · simp only [if_pos hfull]
    exact h.p2Overflow p
  · simp only [if_neg hfull]
    exact hnext (h.modIn p _)

theorem SameStream.p2DataStatus (b : Byte) (p : Port) (h : SameStream s t) :
    SameStream (p2DataStatus b p s) (p2DataStatus b p t) :=
  (h.modIn p _).append p b _ fun h' => h'.p2Classify p

theorem SameStream.p2DataData (b : Byte) (p : Port) (h : SameStream s t) :
    SameStream (p2DataData b p s) (p2DataData b p t) := by
  unfold Machine.p2DataData
  rw [h.ia]
  exact h.append p _ _ fun h' => h'.append p b _ fun h'' => h''.p2Classify p

theorem SameStream.p2FixedByte (b : Byte) (p : Port) (h : SameStream s t) :
    SameStream (p2FixedByte b p s) (p2FixedByte b p t) :=
  h.append p b _ fun h' => h'.p2CompleteIfFull p

theorem SameStream.p2SysexEnd (p : Port) (h : SameStream s t) : SameStream (p2SysexEnd p s) (p2SysexEnd p t) :=
  h.append p sysexEnd _ fun h' => h'.p2Complete p

theorem SameStream.p2SysexByte (b : Byte) (p : Port) (h : SameStream s t) :
    SameStream (p2SysexByte b p s) (p2SysexByte b p t) :=
  h.append p b id fun h' => h'

theorem SameStream.withSelected (f : Port → State → State)
    (hf : ∀ p, SameStream (f p s) (f p t)) (h : SameStream s t) :
    SameStream (withSelected f s) (withSelected f t) := by
  unfold Machine.withSelected
  rw [h.selectedPort]
  split
  · exact h
  · exact hf _

theorem SameStream.p2Byte (b : Byte) (h : SameStream s t) : SameStream (p2Byte b s) (p2Byte b t) := by
  unfold Machine.p2Byte
  rw [h.p2State, h.nIn]
  split
  · exact h
  · split
    · split
      · exact h.setP2 _ _
      · exact h
    · split
      · exact (h.modIn _ _).setP2 _ _
      · exact (h.emit _).setP2 _ _
    · split
      · exact h.withSelected _ fun p => h.p2DataStatus b p
      · exact h.withSelected _ fun p => h.p2DataData b p
    · exact h.withSelected _ fun p => h.p2FixedByte b p
    · split
      · exact h.withSelected _ fun p => h.p2SysexEnd p
      · exact h.withSelected _ fun p => h.p2SysexByte b p

theorem SameStream.scanBytes (body : List Byte) (h : SameStream s t) :
    SameStream (scanBytes Machine.p2Byte body s) (scanBytes Machine.p2Byte body t) := by
  induction body generalizing s t with
  | nil => exact h
  | cons b body ih => exact ih ((h.p2Byte b).setCursor _ _)

/-! ### Packets -/

/-- What an accepted P2 packet leaves of the stream is what its body does to it. -/
theorem receive_sameStream (a : Byte) (body : List Byte) (hv : s.variant = .p2) :
    SameStream (accept (receive (a :: body) s)) (scanBytes p2Byte body s) := by
  rw [receive_p2 _ hv]
  exact (SameStream.packetEnd _).trans ((SameStream.packetStart s).scanBytes body)

/-- The decoder's events after `s` are told by the stream. -/
theorem streamEvents_eq (h : EventsGrow s t) :
    streamEvents t = streamEvents s ++ (newEvents s t).filter (fun e => e != .rxRearm) := by
  rw [streamEvents, ← append_newEvents h, List.filter_append, streamEvents]

/-- Settles O26: both ways the stream is the one that the bytes of `x` and then of `y` give. -/
theorem bodiesFormOneStream : Obligations.BodiesFormOneStream := by
  intro s t u v a b c x y ho hv hr ht hu hw
  have hsu : EventsGrow s u := exec_grows _ hu
  have huv : EventsGrow u v := exec_grows _ hw
  have hst : EventsGrow s t := exec_grows _ ht
  have hcfg : SameConfig s u := (exec_acts (W := False) (.rxPacket (b :: x)) (by simp) False.elim hu).sameConfig
  have whole : SameStream t (scanBytes p2Byte (x ++ y) s) := by
    rw [eq_of_exec_rxPacket ho hr ht]
    exact receive_sameStream a _ hv
  have first : SameStream u (scanBytes p2Byte x s) := by
    rw [eq_of_exec_rxPacket ho hr hu]
    exact receive_sameStream b x hv
  have hru : u.rxPosted = true := by rw [eq_of_exec_rxPacket ho hr hu]; rfl
  have second : SameStream v (scanBytes p2Byte y u) := by
    rw [eq_of_exec_rxPacket (hcfg.sessionOpen.trans ho) hru hw]
    exact receive_sameStream c y (hcfg.variant.trans hv)
  have both : SameStream v (scanBytes p2Byte (x ++ y) s) := by
    rw [scanBytes_append]
    exact second.trans (first.scanBytes y)
  have same : SameStream v t := both.trans whole.symm
  have hevents := same.events
  rw [streamEvents_eq (hsu.trans huv), streamEvents_eq hst] at hevents
  exact ⟨same.ia, same.p2State, same.selectedPort, List.append_cancel_left hevents⟩

end Sys2Proof.Machine
end

section
/-! PROOFS. A P1 packet acts on a port through that port's payload bytes alone (30_encoding.md R82, R83,
41_p1_decoder.md R133, R142): the port's record after the packet is a function of its record before, the length table
and those bytes (`p1Decode_port`). -/

namespace Sys2Proof.Machine

/-! ### A payload byte, as a function of the record -/

/-- `Append` and what follows it, with the overflow recovery; the flag says that the port discards from now on
(41_p1_decoder.md R141). -/
def InRec.appendThen (b : Byte) (next : InRec → InRec × Bool) (r : InRec) : InRec × Bool :=
  if r.length = cap then (r.resetRecord, true) else next (r.push b)

/-- Append `b` and mark the whole buffer deliverable. -/
def InRec.thenDeliverable (b : Byte) (r : InRec) : InRec × Bool := r.appendThen b fun u => (u.markDeliverable, false)

/-- Append `b` and count it. -/
def InRec.thenCounted (b : Byte) (r : InRec) : InRec × Bool := r.appendThen b fun u => (u.countDown, false)

/-- What `AppendAndClassify` makes of a record, and whether the byte overflowed (R135 to R141). -/
def InRec.afterByte (t : LenTable) (b : Byte) (r : InRec) : InRec × Bool :=
  if isStatus b then
    match lengthOf t b with
    | .fixed _ => ((r.withCommand b).withRemaining (dataBytesOf (lengthOf t b))).thenDeliverable b
    | .variableLen => ((r.withCommand sysexBegin).withRemaining 0).thenDeliverable sysexBegin
    | .notACommand => r.thenDeliverable b
  else if 0 < r.bytesRemaining then r.thenCounted b
  else if hasRunningStatus (lengthOf t r.lastCommand) then
    r.appendThen r.lastCommand fun u => (u.withRemaining (dataBytesOf (lengthOf t r.lastCommand))).thenCounted b
  else r.thenDeliverable b

/-- The state with that outcome written to port `i`. -/
def writePort (i : MaskPort) (x : InRec × Bool) (s : State) : State :=
  if x.2 then setDiscard i (raiseCondition .rxOverflow (portByte i.port) (modIn i.port (fun _ => x.1) s))
  else modIn i.port (fun _ => x.1) s

variable (i m : MaskPort) (x : InRec × Bool) (s : State)

theorem writePort_modIn (f : InRec → InRec) : writePort i x (modIn i.port f s) = writePort i x s := by
  have hset : modIn i.port (fun _ => x.1) (modIn i.port f s) = modIn i.port (fun _ => x.1) s := by
    simp [modIn]
  unfold writePort
  rw [hset]

theorem p1Overflow_eq : p1Overflow i s = writePort i (s.ia[i.port].resetRecord, true) s := rfl

/-- An append that goes on with a record function, or recovers from the overflow. -/
theorem append_eq_writePort (b : Byte) (next : State → State) (g : InRec → InRec × Bool)
    (hnext : ∀ t : State, next t = writePort i (g t.ia[i.port]) t) :
    (match append i.port b s with
      | none => p1Overflow i s
      | some t => next t) = writePort i (s.ia[i.port].appendThen b g) s := by
  rcases append_eq i.port b s with ⟨hl, h⟩ | ⟨hl, h⟩
  · rw [h, InRec.appendThen, if_pos hl]
    exact p1Overflow_eq i s
  · rw [h, InRec.appendThen, if_neg hl]
    dsimp only
    rw [hnext, writePort_modIn, modIn_self]

theorem appendDeliverable_eq (b : Byte) :
    appendDeliverable i b s = writePort i (s.ia[i.port].thenDeliverable b) s :=
  append_eq_writePort i s b _ _ fun _ => rfl

theorem appendCounted_eq (b : Byte) : appendCounted i b s = writePort i (s.ia[i.port].thenCounted b) s :=
  append_eq_writePort i s b _ _ fun _ => rfl

theorem p1Status_eq (b : Byte) :
    p1Status b i s =
      writePort i
        (((s.ia[i.port].withCommand b).withRemaining (dataBytesOf (lengthOf s.lenTable b))).thenDeliverable b) s := by
  rw [p1Status, appendDeliverable_eq, writePort_modIn, modIn_self]

theorem p1Sysex_eq :
    p1Sysex i s =
      writePort i (((s.ia[i.port].withCommand sysexBegin).withRemaining 0).thenDeliverable sysexBegin) s := by
  rw [p1Sysex, appendDeliverable_eq, writePort_modIn, modIn_self]

theorem p1RunningStatus_eq (b : Byte) :
    p1RunningStatus b i s =
      writePort i (s.ia[i.port].appendThen s.ia[i.port].lastCommand fun u =>
        (u.withRemaining (dataBytesOf (lengthOf s.lenTable s.ia[i.port].lastCommand))).thenCounted b) s := by
  refine append_eq_writePort i s _ _ _ fun t => ?_
  rw [appendCounted_eq, writePort_modIn, modIn_self]

/-- `AppendAndClassify` reads the record of its port and the length table, and writes that record alone. -/
theorem appendAndClassify_eq (b : Byte) :
    appendAndClassify b i s = writePort i (s.ia[i.port].afterByte s.lenTable b) s := by
  unfold appendAndClassify InRec.afterByte
  split
  · cases hlen : lengthOf s.lenTable b with
    | fixed n => simpa only [hlen] using p1Status_eq i s b
    | variableLen => exact p1Sysex_eq i s
    | notACommand => exact appendDeliverable_eq i s b
  · split
    · exact appendCounted_eq i s b
    · split
      · exact p1RunningStatus_eq i s b
      · exact appendDeliverable_eq i s b

/-! ### What a payload byte leaves -/

@[simp] theorem writePort_lenTable : (writePort i x s).lenTable = s.lenTable := by
  unfold writePort; split <;> rfl

@[simp] theorem writePort_inData : (writePort i x s).scan.inData = s.scan.inData := by
  unfold writePort; split <;> rfl

@[simp] theorem writePort_mask : (writePort i x s).scan.mask = s.scan.mask := by
  unfold writePort; split <;> rfl

@[simp] theorem writePort_channel : (writePort i x s).scan.channel = s.scan.channel := by
  unfold writePort; split <;> rfl

/-- A port's part of the P1 decoder: its record, and whether it discards. -/
def portView (m : MaskPort) (s : State) : InRec × Bool := (s.ia[m.port], discarding m s)

theorem portView_writePort_self (h : discarding i s = false) : portView i (writePort i x s) = x := by
  obtain ⟨r, full⟩ := x
  cases full with
  | false => simpa [portView, writePort, discarding, modIn] using h
  | true => simp [portView, writePort, discarding, modIn, setDiscard]

theorem portView_writePort_ne (h : m ≠ i) : portView m (writePort i x s) = portView m s := by
  have hv : i.val ≠ m.val := fun e => h (Fin.ext e).symm
  unfold writePort
  split <;> simp [portView, discarding, modIn, setDiscard, hv]

/-- No payload byte is delivered before the packet ends. -/
theorem deliveriesTo_writePort (p : Port) : deliveriesTo p (writePort i x s).events = deliveriesTo p s.events := by
  unfold writePort
  split <;> simp [deliveriesTo, setDiscard]

/-! ### The scan of a body -/

/-- Below the channel cursor the mask holds no bit (41_p1_decoder.md R133), so the cursor may be forgotten. -/
theorem payloadPort_eq (h : ScanOk s) : payloadPort s = lowbit s.scan.mask 0 := by
  obtain ⟨_, hlow⟩ := h
  refine Option.ext fun i => ?_
  change lowbit s.scan.mask s.scan.channel = some i ↔ lowbit s.scan.mask 0 = some i
  rw [lowbit_some, lowbit_some]
  constructor
  · rintro ⟨_, hi, hbelow⟩
    refine ⟨Nat.zero_le _, hi, fun k _ hk => ?_⟩
    by_cases hc : s.scan.channel ≤ k.val
    · exact hbelow k hc hk
    · exact hlow k (by omega)
  · rintro ⟨_, hi, hbelow⟩
    refine ⟨?_, hi, fun k _ hk => hbelow k (Nat.zero_le _) hk⟩
    by_contra hc
    rw [hlow i (by omega)] at hi
    cases hi

theorem lowbit_zero_none (b : Byte) : lowbit b 0 = none ↔ b = 0x00 := by
  rw [lowbit_none, eq_zero_iff_getLsbD]
  exact ⟨fun h k => h k (Nat.zero_le _), fun h k _ => h k⟩

/-- The record and the discard flag of a port after one of its payload bytes (41_p1_decoder.md R133). -/
def feed (t : LenTable) (v : InRec × Bool) (b : Byte) : InRec × Bool := if v.2 then v else v.1.afterByte t b

/-- What a payload byte for port `i` does before the mask is looked at again. -/
def takeByte (i : MaskPort) (b : Byte) (s : State) : State :=
  if discarding i s then takePort i s else writePort i (s.ia[i.port].afterByte s.lenTable b) (takePort i s)

theorem p1Byte_payload (b : Byte) (hd : s.scan.inData = true) (hi : payloadPort s = some i) :
    p1Byte b s = leaveData (takeByte i b s) := by
  rw [p1Byte, if_pos hd, payloadStep, hi]
  dsimp only
  rw [appendAndClassify_eq]
  rfl

@[simp] theorem takeByte_lenTable (b : Byte) : (takeByte i b s).lenTable = s.lenTable := by
  unfold takeByte; split <;> simp [takePort]

@[simp] theorem takeByte_inData (b : Byte) : (takeByte i b s).scan.inData = s.scan.inData := by
  unfold takeByte; split <;> simp [takePort]

@[simp] theorem takeByte_mask (b : Byte) : (takeByte i b s).scan.mask = clearBit s.scan.mask i.val := by
  unfold takeByte; split <;> simp [takePort]

@[simp] theorem takeByte_channel (b : Byte) : (takeByte i b s).scan.channel = i.val + 1 := by
  unfold takeByte; split <;> simp [takePort]

theorem deliveriesTo_takeByte (b : Byte) (p : Port) :
    deliveriesTo p (takeByte i b s).events = deliveriesTo p s.events := by
  unfold takeByte
  split
  · rfl
  · exact deliveriesTo_writePort i _ _ p

theorem portView_takeByte_self (b : Byte) :
    portView i (takeByte i b s) = feed s.lenTable (portView i s) b := by
  unfold takeByte feed
  by_cases hd : discarding i s = true
  · rw [if_pos hd]
    exact (if_pos hd).symm
  · have hd' : discarding i (takePort i s) = false := Bool.eq_false_iff.2 hd
    rw [if_neg hd, portView_writePort_self i _ _ hd']
    exact (if_neg hd).symm

theorem portView_takeByte_ne (b : Byte) (h : m ≠ i) : portView m (takeByte i b s) = portView m s := by
  unfold takeByte
  split
  · rfl
  · exact portView_writePort_ne i m _ _ h

@[simp] theorem leaveData_lenTable : (leaveData s).lenTable = s.lenTable := by
  unfold leaveData; split <;> rfl

@[simp] theorem leaveData_mask : (leaveData s).scan.mask = s.scan.mask := by
  unfold leaveData; split <;> rfl

@[simp] theorem leaveData_channel : (leaveData s).scan.channel = s.scan.channel := by
  unfold leaveData; split <;> rfl

@[simp] theorem portView_leaveData : portView m (leaveData s) = portView m s := by
  unfold leaveData; split <;> rfl

theorem leaveData_inData (h : s.scan.inData = true) : (leaveData s).scan.inData = true ↔ s.scan.mask ≠ 0x00 := by
  unfold leaveData
  split
  · rename_i hm; simp [setInData, hm]
  · rename_i hm; exact ⟨fun _ => hm, fun _ => h⟩

/-- A payload byte takes its bit out of the mask, and the cursor moves past it. -/
theorem scanOk_payload (b : Byte) (h : ScanOk s) (hd : s.scan.inData = true) (hi : payloadPort s = some i) :
    ScanOk (leaveData (takeByte i b s)) := by
  refine ⟨?_, fun k hk => ?_⟩
  · rw [leaveData_inData _ (by rw [takeByte_inData, hd]), leaveData_mask]
  · rw [leaveData_channel, takeByte_channel] at hk
    rw [leaveData_mask, takeByte_mask, clearBit_getLsbD]
    rw [payloadPort_eq s h, lowbit_some] at hi
    obtain ⟨_, _, hbelow⟩ := hi
    by_cases hki : k = i
    · simp [hki]
    · have hlt : k < i := lt_of_le_of_ne (Nat.lt_succ_iff.1 hk) hki
      rw [hbelow k (Nat.zero_le _) hlt, Bool.false_and]

/-- Out of data mode every byte is the next mask (41_p1_decoder.md R132). -/
theorem p1Byte_mask (b : Byte) (h : ScanOk s) (hd : s.scan.inData = false) :
    ScanOk (p1Byte b s) ∧ (p1Byte b s).scan.mask = b ∧ (p1Byte b s).lenTable = s.lenTable ∧
      (p1Byte b s).events = s.events ∧ portView m (p1Byte b s) = portView m s := by
  have hmask : s.scan.mask = 0x00 := by
    obtain ⟨hin, _⟩ := h
    by_contra hne
    rw [hin.2 hne] at hd
    cases hd
  rw [p1Byte, if_neg (by simp [hd])]
  split
  · rename_i hb
    subst hb
    exact ⟨h, hmask, rfl, rfl, rfl⟩
  · rename_i hb
    exact ⟨⟨⟨fun _ => hb, fun _ => rfl⟩, fun _ hk => absurd hk (Nat.not_lt_zero _)⟩, rfl, rfl, rfl, rfl⟩

/-- The payload bytes for one port among payload bytes with their ports. -/
def bytesFor (m : MaskPort) (l : List (MaskPort × Byte)) : List Byte :=
  (l.filter (fun x => decide (x.1 = m))).map (fun x => x.2)

theorem bytesFor_cons (b : Byte) (l : List (MaskPort × Byte)) :
    bytesFor m ((i, b) :: l) = if i = m then b :: bytesFor m l else bytesFor m l := by
  by_cases h : i = m <;> simp [bytesFor, h]

/-- The scan feeds a port the bytes that the grammar of the body gives it, and no other byte (30_encoding.md R82). -/
theorem scanBytes_portView (body : List Byte) (h : ScanOk s) :
    portView m (scanBytes p1Byte body s) =
      (bytesFor m (p1Payloads s.scan.mask body)).foldl (feed s.lenTable) (portView m s) := by
  induction body generalizing s with
  | nil => rfl
  | cons b body ih =>
    have hmode : s.scan.inData = true ↔ s.scan.mask ≠ 0x00 := h.1
    have hnext (u : State) (hu : ScanOk u) :
        portView m (scanBytes p1Byte body (setCursor (s.cursor + 1) u)) =
          (bytesFor m (p1Payloads u.scan.mask body)).foldl (feed u.lenTable) (portView m u) := ih _ hu
    rw [scanBytes]
    by_cases hd : s.scan.inData = true
    · obtain ⟨i, hi⟩ : ∃ i, payloadPort s = some i := by
        rw [← Option.ne_none_iff_exists', payloadPort_eq s h, Ne, lowbit_zero_none]
        exact hmode.1 hd
      rw [p1Byte_payload i s b hd hi, hnext _ (scanOk_payload i s b h hd hi)]
      rw [payloadPort_eq s h] at hi
      simp only [p1Payloads, hi, bytesFor_cons, leaveData_mask, takeByte_mask, leaveData_lenTable, takeByte_lenTable,
        portView_leaveData]
      by_cases him : i = m
      · subst him
        rw [if_pos rfl, List.foldl_cons, portView_takeByte_self]
      · rw [if_neg him, portView_takeByte_ne i m s b (Ne.symm him)]
    · obtain ⟨hok, hmask, hlen, _, hview⟩ := p1Byte_mask m s b h (by simpa using hd)
      have hnone : lowbit s.scan.mask 0 = none := by
        rw [lowbit_zero_none]
        by_contra hne
        exact hd (hmode.2 hne)
      simp only [hnext _ hok, p1Payloads, hnone, hmask, hlen, hview]

/-- No body byte delivers. -/
theorem deliveriesTo_p1Byte (p : Port) (b : Byte) : deliveriesTo p (p1Byte b s).events = deliveriesTo p s.events := by
  by_cases hd : s.scan.inData = true
  · cases hi : payloadPort s with
    | none => rw [p1Byte, if_pos hd, payloadStep, hi]
    | some i => rw [p1Byte_payload i s b hd hi, leaveData_events, deliveriesTo_takeByte]
  · rw [p1Byte, if_neg hd]
    split <;> rfl

theorem deliveriesTo_scanBytes (p : Port) (body : List Byte) :
    deliveriesTo p (scanBytes p1Byte body s).events = deliveriesTo p s.events :=
  scanBytes_keeps (fun t => deliveriesTo p t.events = deliveriesTo p s.events) p1Byte
    (fun b t h => (deliveriesTo_p1Byte t p b).trans h) body s rfl

/-! ### Deliveries -/

/-- What the delivery phase leaves of a record (41_p1_decoder.md R142). -/
def InRec.delivered (r : InRec) : InRec := if 0 < r.deliverableLength then r.shiftOut r.deliverableLength else r

/-- The messages that the delivery phase takes from a record: one, or none. -/
def InRec.ready (r : InRec) : List (List Byte) := if 0 < r.deliverableLength then [r.deliverable] else []

theorem deliveriesTo_append (p : Port) (es es' : List Event) :
    deliveriesTo p (es ++ es') = deliveriesTo p es ++ deliveriesTo p es' :=
  List.filterMap_append

theorem deliverPort_self (p : Port) :
    (deliverPort p s).ia[p] = s.ia[p].delivered ∧
      deliveriesTo p (deliverPort p s).events = deliveriesTo p s.events ++ s.ia[p].ready := by
  unfold deliverPort InRec.delivered InRec.ready
  split
  · refine ⟨modIn_self p _ _, ?_⟩
    rw [modIn_events, emit_events, deliveriesTo_append]
    simp [deliveriesTo]
  · exact ⟨rfl, (List.append_nil _).symm⟩

theorem deliverPort_ne (p p' : Port) (h : p' ≠ p) :
    (deliverPort p s).ia[p'] = s.ia[p'] ∧ deliveriesTo p' (deliverPort p s).events = deliveriesTo p' s.events := by
  unfold deliverPort
  split
  · refine ⟨modIn_ne p p' _ _ h, ?_⟩
    rw [modIn_events, emit_events, deliveriesTo_append]
    simp [deliveriesTo, h.symm]
  · exact ⟨rfl, rfl⟩

theorem deliverPorts_ne (p : Port) (ports : List Port) (h : p ∉ ports) :
    (ports.foldl (fun t q => deliverPort q t) s).ia[p] = s.ia[p] ∧
      deliveriesTo p (ports.foldl (fun t q => deliverPort q t) s).events = deliveriesTo p s.events := by
  induction ports generalizing s with
  | nil => exact ⟨rfl, rfl⟩
  | cons q ports ih =>
    rw [List.mem_cons, not_or] at h
    obtain ⟨hq, hports⟩ := h
    obtain ⟨hrec, hdel⟩ := ih (deliverPort q s) hports
    obtain ⟨hrec', hdel'⟩ := deliverPort_ne s q p hq
    exact ⟨hrec.trans hrec', hdel.trans hdel'⟩

/-- The delivery phase delivers from each port once, and its own record alone tells what. -/
theorem deliverAll_port (p : Port) :
    (deliverAll s).ia[p] = s.ia[p].delivered ∧
      deliveriesTo p (deliverAll s).events = deliveriesTo p s.events ++ s.ia[p].ready := by
  obtain ⟨before, after, hports⟩ := List.append_of_mem (mem_allPorts p)
  have hnd : (before ++ p :: after).Nodup := by
    rw [← hports, allPorts_eq]
    exact List.nodup_finRange _
  rw [List.nodup_middle, List.nodup_cons, List.mem_append, not_or] at hnd
  obtain ⟨⟨hbefore, hafter⟩, _⟩ := hnd
  obtain ⟨hrec, hdel⟩ := deliverPorts_ne s p before hbefore
  rw [deliverAll, hports, List.foldl_append, List.foldl_cons]
  generalize before.foldl (fun t q => deliverPort q t) s = u at hrec hdel ⊢
  obtain ⟨hrec', hdel'⟩ := deliverPort_self u p
  obtain ⟨hrec'', hdel''⟩ := deliverPorts_ne (deliverPort p u) p after hafter
  rw [hrec'', hdel'', hrec', hdel', hrec, hdel]
  exact ⟨rfl, rfl⟩

/-! ### Packets -/

theorem scanOk_init (h : s.scan = ScanState.init) : ScanOk s := by
  unfold ScanOk
  rw [h]
  exact ⟨by simp [ScanState.init], fun _ hk => absurd hk (Nat.not_lt_zero _)⟩

/-- A port's record before the delivery phase, as a function of its record before the packet, the length table and its
payload bytes. -/
def packetRecord (t : LenTable) (r : InRec) (bytes : List Byte) : InRec := (bytes.foldl (feed t) (r, false)).1

/-- What a P1 packet does to one port. -/
theorem p1Decode_port (pkt : List Byte) (hl : 2 ≤ pkt.length) :
    (p1Decode pkt s).ia[m.port] = (packetRecord s.lenTable s.ia[m.port] (payloadFor m pkt)).delivered ∧
      deliveriesTo m.port (p1Decode pkt s).events =
        deliveriesTo m.port s.events ++ (packetRecord s.lenTable s.ia[m.port] (payloadFor m pkt)).ready := by
  have hscan := scanBytes_portView m (setCursor 2 (setScan ScanState.init s)) (pkt.drop 2) (scanOk_init _ rfl)
  have hdel := deliveriesTo_scanBytes (setCursor 2 (setScan ScanState.init s)) m.port (pkt.drop 2)
  have hview : portView m (setCursor 2 (setScan ScanState.init s)) = (s.ia[m.port], false) := by
    simp [portView, discarding, ScanState.init]
  rw [hview] at hscan
  have hrec : (scanBytes p1Byte (pkt.drop 2) (setCursor 2 (setScan ScanState.init s))).ia[m.port] =
      packetRecord s.lenTable s.ia[m.port] (payloadFor m pkt) := congrArg Prod.fst hscan
  obtain ⟨hrecord, hready⟩ :=
    deliverAll_port (scanBytes p1Byte (pkt.drop 2) (setCursor 2 (setScan ScanState.init s))) m.port
  rw [hrec] at hrecord hready
  rw [hdel] at hready
  rw [p1Decode, if_neg (by omega), setCursor_ia, setScan_ia, setCursor_events, setScan_events]
  exact ⟨hrecord, hready⟩

/-- What an accepted RX_PACKET of a P1 session does to one port. -/
theorem receive_p1_port {s t : State} {pkt : List Byte} (ho : s.sessionOpen = true) (hv : s.variant = .p1)
    (hr : s.rxPosted = true) (hl : 2 ≤ pkt.length) (h : exec (.rxPacket pkt) s = .next t) :
    t.ia[m.port] = (packetRecord s.lenTable s.ia[m.port] (payloadFor m pkt)).delivered ∧
      deliveriesTo m.port (newEvents s t) =
        (packetRecord s.lenTable s.ia[m.port] (payloadFor m pkt)).ready := by
  have hgrow : EventsGrow s t := exec_grows _ h
  have ht : t = accept (rearm (p1Decode pkt (setRxPosted false s))) := by
    rw [eq_of_exec_rxPacket ho hr h, receive, decodePacket, setRxPosted_variant, hv]
  obtain ⟨hrec, hdel⟩ := p1Decode_port m (setRxPosted false s) pkt hl
  rw [setRxPosted_ia, setRxPosted_lenTable] at hrec hdel
  refine ⟨by rw [ht, accept_ia, rearm, emit_ia, setRxPosted_ia, hrec], ?_⟩
  have hall : deliveriesTo m.port t.events = deliveriesTo m.port (p1Decode pkt (setRxPosted false s)).events := by
    rw [ht]
    simp [rearm, deliveriesTo]
  rw [hdel, ← append_newEvents hgrow, deliveriesTo_append] at hall
  exact List.append_cancel_left hall

/-- Settles O22: what a packet does to a port is a function of the port's record, the length table and the payload bytes
for that port, and the two sessions agree on these. -/
theorem p1PortsAreIsolated : Obligations.P1PortsAreIsolated := by
  intro s s' t t' pkt pkt' m ho hv hr ho' hv' hr' hl hl' htable hrec hbytes h h'
  obtain ⟨hia, hdel⟩ := receive_p1_port m ho hv hr hl h
  obtain ⟨hia', hdel'⟩ := receive_p1_port m ho' hv' hr' hl' h'
  rw [hia, hia', hdel, hdel', htable, hrec, hbytes]
  exact ⟨rfl, rfl⟩

end Sys2Proof.Machine
end

section
/-! PROOFS. The pull phase of the P2 encoder asks each output port once (45_p2_encoder.md R205, 46_control.md R241). -/

namespace Sys2Proof.Machine

/-! ### One push -/

theorem PushCase.length {classify : OutFifo → OutFifo} (h : PushCase classify) (f : OutFifo) :
    (classify f).length = f.length := by
  cases h with
  | sysex | sysexEnd | notACommand | dataNospan => rfl
  | status n => unfold OutFifo.pushedStatus; split <;> rfl
  | dataSpan => unfold OutFifo.pushedDataSpan; split <;> rfl

theorem OutFifo.pushClassify_length (t : LenTable) (b : Byte) (f : OutFifo) :
    (f.pushClassify t b).length = f.length := by
  obtain ⟨classify, hcase, h⟩ := OutFifo.pushClassify_case t b f
  rw [h, hcase.length]

/-- The report of a push of `n` bytes to output port `q`: one, where they do not fit (44_p2_fifo.md R190). -/
def overflowReport (q : Port) (n : Nat) (s : State) : List Event :=
  if 64 < s.fifo[q].length + n then [.report 3 (portByte q)] else []

/-- Everything a push does, but for what it makes of its own FIFO. -/
theorem fifoPush_frame (q : Port) (bytes : List Byte) (s : State) (hl : s.fifo[q].length ≤ 64) :
    ∃ f, fifoPush q bytes s =
      { s with fifo := s.fifo.set q f, events := s.events ++ overflowReport q bytes.length s } := by
  induction bytes generalizing s with
  | nil =>
    have hnone : overflowReport q 0 s = [] := if_neg (Nat.not_lt.2 hl)
    exact ⟨s.fifo[q], by simp [fifoPush, hnone]⟩
  | cons b bytes ih =>
    rcases fifoPush_cons q b bytes s with ⟨hfull, h⟩ | ⟨hroom, h⟩
    · refine ⟨s.fifo[q], ?_⟩
      have hover : overflowReport q (b :: bytes).length s = [.report 3 (portByte q)] :=
        if_pos (by rw [hfull, List.length_cons]; exact Nat.lt_add_of_pos_right (Nat.succ_pos _))
      rw [h, hover]
      simp
    · have hlen : ((s.fifo[q].write b).pushClassify s.lenTable b).length = s.fifo[q].length + 1 :=
        OutFifo.pushClassify_length _ b _
      rw [h]
      generalize (s.fifo[q].write b).pushClassify s.lenTable b = f at hlen ⊢
      have hl' : f.length ≤ 64 := hlen ▸ Nat.succ_le_of_lt (lt_of_le_of_ne hl hroom)
      obtain ⟨f', hf'⟩ := ih { s with fifo := s.fifo.set q f } (by simpa using hl')
      refine ⟨f', ?_⟩
      have hover : overflowReport q bytes.length { s with fifo := s.fifo.set q f } =
          overflowReport q (b :: bytes).length s := by
        simp only [overflowReport, List.length_cons]
        simp [hlen, Nat.add_assoc, Nat.add_comm 1]
      rw [hf', hover]
      simp

/-! ### The pull phase -/

/-- The events of one producer's turn: its PULL, and the report where its answer does not fit. -/
def pullPortEvents (s : State) (q : Port) : List Event :=
  .pull q 3 s.env.pull[q] :: overflowReport q (s.env.pull[q]).length s

theorem p2PullEvents_eq (s : State) (hv : s.variant = .p2) :
    p2PullEvents s = (pulledPorts s).flatMap (pullPortEvents s) := by
  rw [pulledPorts, hv]
  rfl

theorem p2PullPort_frame (q : Port) (s : State) (hl : s.fifo[q].length ≤ 64) :
    ∃ f, p2PullPort s q = { s with fifo := s.fifo.set q f, events := s.events ++ pullPortEvents s q } := by
  obtain ⟨f, hf⟩ := fifoPush_frame q (pullAnswer q s) (emitPull q s) hl
  have hev : s.events ++ pullPortEvents s q =
      (emitPull q s).events ++ overflowReport q (pullAnswer q s).length (emitPull q s) := by
    rw [emitPull, emit_events, List.append_assoc]
    rfl
  rw [hev]
  exact ⟨f, hf⟩

/-- The turns of distinct ports, each of which finds its FIFO as it was at the start. -/
theorem foldl_p2PullPort_frame (s : State) (ports : List Port) (hnd : ports.Nodup) (t : State)
    (henv : t.env = s.env) (hfifo : ∀ q ∈ ports, t.fifo[q] = s.fifo[q]) (hl : ∀ q : Port, s.fifo[q].length ≤ 64) :
    ∃ F, ports.foldl p2PullPort t =
      { t with fifo := F, events := t.events ++ ports.flatMap (pullPortEvents s) } := by
  induction ports generalizing t with
  | nil => exact ⟨t.fifo, by simp⟩
  | cons q ports ih =>
    rw [List.nodup_cons] at hnd
    obtain ⟨hq, hnd⟩ := hnd
    have hqf : t.fifo[q] = s.fifo[q] := hfifo q List.mem_cons_self
    obtain ⟨f, hf⟩ := p2PullPort_frame q t (by rw [hqf]; exact hl q)
    have hev : pullPortEvents t q = pullPortEvents s q := by
      simp only [pullPortEvents, overflowReport, henv, hqf]
    rw [List.foldl_cons, hf, hev]
    have hothers : ∀ q' ∈ ports, (t.fifo.set q f)[q'] = s.fifo[q'] := by
      intro q' hq'
      have hne : q.val ≠ q'.val := fun e => hq (Fin.ext e ▸ hq')
      rw [← hfifo q' (List.mem_cons_of_mem _ hq')]
      exact Vector.getElem_set_ne _ _ hne
    obtain ⟨F, hF⟩ := ih hnd
      { t with fifo := t.fifo.set q f, events := t.events ++ pullPortEvents s q } henv hothers
    refine ⟨F, hF.trans ?_⟩
    simp

/-- Everything the pull phase does, but for what it makes of the FIFOs. -/
theorem p2Pull_frame (s : State) (hv : s.variant = .p2) (h : FifoOk s) :
    ∃ F, p2Pull s = { s with fifo := F, events := s.events ++ p2PullEvents s } := by
  have hnd : (pulledPorts s).Nodup := by
    rw [pulledPorts, hv, allPorts_eq]
    exact (List.nodup_finRange _).filter _
  have hl (q : Port) : s.fifo[q].length ≤ 64 := by
    obtain ⟨_, hlen, _⟩ := (OutFifo.ok_iff _).1 (h q)
    exact hlen
  rw [p2PullEvents_eq s hv]
  exact foldl_p2PullPort_frame s (pulledPorts s) hnd s rfl (fun _ _ => rfl) hl

end Sys2Proof.Machine
end

section
/-! PROOFS. The P2 packet is whole groups, and the packer leaves sendable bytes only when the packet is full
(30_encoding.md R88, 45_p2_encoder.md R207 to R217). -/

namespace Sys2Proof.Machine

variable {s t : State} {q : Port}

/-! ### Whole groups -/

/-- The packet under assembly: closed groups of 14 bytes, each ending in its trailer, at most four of them, and the `k`
slot bytes of an open group; a packet of four groups has no open one (45_p2_encoder.md R207, R208). -/
structure WholeGroups (e : EncState) : Prop where
  length : e.out.length = 14 * e.groups + e.k
  slots : e.k < 12
  trailers : ∀ g, g < e.groups → e.out[14 * g + 12]? = some 0x01 ∧ e.out[14 * g + 13]? = some 0x00
  atMost : e.groups ≤ 4
  full : e.groups = 4 → e.k = 0

theorem WholeGroups.init : WholeGroups EncState.init :=
  ⟨rfl, by decide, fun _ hg => absurd hg (Nat.not_lt_zero _), by decide, fun _ => rfl⟩

/-- What a closed group holds stays where it is. -/
theorem WholeGroups.trailers_append {e : EncState} (h : WholeGroups e) (more : List Byte) (g : Nat)
    (hg : g < e.groups) :
    (e.out ++ more)[14 * g + 12]? = some 0x01 ∧ (e.out ++ more)[14 * g + 13]? = some 0x00 := by
  have hlen := h.length
  rw [List.getElem?_append_left (by omega), List.getElem?_append_left (by omega)]
  exact h.trailers g hg

/-- One more slot byte keeps the groups whole, where the packet is not full. -/
theorem WholeGroups.emitSlot (b : Byte) (h : WholeGroups s.enc) (hg : s.enc.groups ≠ 4) :
    WholeGroups (emitSlot b s).enc := by
  have hlen := h.length
  have hslots := h.slots
  have hmost := h.atMost
  rw [emitSlot_eq]
  by_cases hk : s.enc.k = 11
  · simp only [hk, if_true]
    refine ⟨by simp [hlen, hk]; omega, Nat.zero_lt_succ 11, fun g hlt => ?_, by dsimp only; omega, fun _ => rfl⟩
    by_cases hgg : g < s.enc.groups
    · exact h.trailers_append _ g hgg
    · obtain rfl : g = s.enc.groups := Nat.le_antisymm (Nat.lt_succ_iff.1 hlt) (Nat.not_lt.1 hgg)
      dsimp only
      rw [List.getElem?_append_right (by omega), List.getElem?_append_right (by omega),
        show 14 * s.enc.groups + 12 - s.enc.out.length = 1 by omega,
        show 14 * s.enc.groups + 13 - s.enc.out.length = 2 by omega]
      exact ⟨rfl, rfl⟩
  · simp only [hk, if_false]
    exact ⟨by simp [hlen]; omega, by dsimp only; omega, h.trailers_append _, hmost, fun h4 => absurd h4 hg⟩

/-! ### What the packer's actions keep -/

/-- What the packer that started in `s` has done so far: it has written the FIFOs, the packet and the last output port
alone, the packet is whole groups, and while the packet is empty no switch has been made. -/
structure PackedFrom (s t : State) : Prop where
  frame : t = { s with fifo := t.fifo, enc := t.enc, lastOutputPort := t.lastOutputPort }
  whole : WholeGroups t.enc
  idle : t.enc.out = [] → t.lastOutputPort = s.lastOutputPort

theorem PackedFrom.start (h : s.enc = EncState.init) : PackedFrom s s :=
  ⟨rfl, h ▸ WholeGroups.init, fun _ => rfl⟩

theorem emitSlot_out_ne_nil (b : Byte) (s : State) : (emitSlot b s).enc.out ≠ [] := by
  rw [emitSlot_eq]
  split <;> simp

theorem PackedFrom.emitSlot (b : Byte) (h : PackedFrom s t) (hg : t.enc.groups ≠ 4) :
    PackedFrom s (emitSlot b t) where
  frame := by
    have hf := h.frame
    rw [emitSlot_eq, hf]
  whole := h.whole.emitSlot b hg
  idle := fun h0 => absurd h0 (emitSlot_out_ne_nil b t)

theorem PackedFrom.setDue (d : P2Due) (h : PackedFrom s t) : PackedFrom s (setDue d t) where
  frame := by
    have hf := h.frame
    rw [hf]; rfl
  whole := ⟨h.whole.length, h.whole.slots, h.whole.trailers, h.whole.atMost, h.whole.full⟩
  idle := h.idle

theorem PackedFrom.setLastOutputPort (q : Port) (h : PackedFrom s t) (hne : t.enc.out ≠ []) :
    PackedFrom s (setLastOutputPort q t) where
  frame := by
    have hf := h.frame
    rw [hf]; rfl
  whole := h.whole
  idle := fun h0 => absurd h0 hne

theorem PackedFrom.modFifo (q : Port) (f : OutFifo → OutFifo) (h : PackedFrom s t) :
    PackedFrom s (modFifo q f t) where
  frame := by
    have hf := h.frame
    rw [hf]; rfl
  whole := h.whole
  idle := h.idle

theorem PackedFrom.emitFifoByte (q : Port) (h : PackedFrom s t) (hg : t.enc.groups ≠ 4) :
    PackedFrom s (emitFifoByte q t) :=
  ((h.modFifo q _).emitSlot _ hg).setDue _

theorem emitSlot_of_lt (b : Byte) (s : State) (h : s.enc.k < 11) :
    (emitSlot b s).enc.groups = s.enc.groups ∧ (emitSlot b s).enc.k = s.enc.k + 1 := by
  rw [emitSlot_eq, if_neg (by omega)]
  exact ⟨rfl, rfl⟩

theorem PackedFrom.switchTo (q : Port) (h : PackedFrom s t) (hg : t.enc.groups ≠ 4) (hk : t.enc.k < 10) :
    PackedFrom s (switchTo q t) := by
  obtain ⟨hg1, hk1⟩ := emitSlot_of_lt marker t (by omega)
  have hmarker : PackedFrom s (emitMarker q t) := (h.emitSlot _ hg).setDue _
  have hgm : (emitMarker q t).enc.groups ≠ 4 := hg1 ▸ hg
  have hkm : (emitMarker q t).enc.k < 11 := by
    change (Machine.emitSlot marker t).enc.k < 11
    omega
  obtain ⟨hg2, _⟩ := emitSlot_of_lt (portByte q) (emitMarker q t) hkm
  have hport : PackedFrom s (emitSwitchMarker q t) :=
    ((hmarker.emitSlot _ hgm).setLastOutputPort q (emitSlot_out_ne_nil _ _)).setDue _
  have hgp : (emitSwitchMarker q t).enc.groups ≠ 4 := by
    change (Machine.emitSlot (portByte q) (emitMarker q t)).enc.groups ≠ 4
    rw [hg2]
    exact hgm
  unfold Machine.switchTo prime
  split
  · exact (hport.emitSlot _ hgp).setDue _
  · exact hport.setDue _

theorem PackedFrom.padSlots (left : Nat) (h : PackedFrom s t) : PackedFrom s (padSlots left t) := by
  induction left generalizing t with
  | zero => exact h
  | succ left ih =>
    unfold Machine.padSlots
    split
    · exact h
    · rename_i hk
      exact ih (h.emitSlot _ fun h4 => hk (h.whole.full h4))

theorem PackedFrom.drainPort (q : Port) (h : PackedFrom s t) : PackedFrom s (drainPort q t) :=
  drainLoop_keeps (PackedFrom s) q (fun _ hu _ hg _ => hu.emitFifoByte q hg) (fun _ hu _ _ _ => hu.padSlots group)
    (fun _ hu _ hg hk => hu.switchTo q hg hk) _ t h

/-! ### The drain of a port -/

@[simp] theorem emitSlot_fifo (b : Byte) (s : State) : (emitSlot b s).fifo = s.fifo := by
  rw [emitSlot_eq]

@[simp] theorem emitSlot_lastOutputPort (b : Byte) (s : State) : (emitSlot b s).lastOutputPort = s.lastOutputPort := by
  rw [emitSlot_eq]

theorem padGroup_eq (s : State) (h0 : 0 < s.enc.k) (h1 : s.enc.k < 12) :
    padGroup s = { s with enc := { s.enc with
      out := s.enc.out ++ List.replicate (12 - s.enc.k) 0xFF ++ [0x01, 0x00], k := 0, groups := s.enc.groups + 1 } } :=
  padSlots_eq group s h0 h1 (Nat.sub_le 12 _)

@[simp] theorem switchTo_fifo (q : Port) (s : State) : (switchTo q s).fifo = s.fifo := by
  unfold switchTo prime
  split <;> simp [emitSwitchMarker, emitMarker, emitSwitchPort, emitPrime]

@[simp] theorem switchTo_lastOutputPort (q : Port) (s : State) : (switchTo q s).lastOutputPort = some q := by
  unfold switchTo prime
  split <;> simp [emitSwitchMarker, emitMarker, emitSwitchPort, emitPrime]

theorem emitFifoByte_fifo (q : Port) (s : State) : (emitFifoByte q s).fifo = (modFifo q OutFifo.sent s).fifo := by
  simp [emitFifoByte]

@[simp] theorem emitFifoByte_lastOutputPort (q : Port) (s : State) :
    (emitFifoByte q s).lastOutputPort = s.lastOutputPort := by
  simp [emitFifoByte]

theorem OutFifo.sent_sendableLength (f : OutFifo) : f.sent.sendableLength = f.sendableLength - 1 := by
  unfold OutFifo.sent
  split <;> rfl

/-- Port `q` has no sendable byte left, or the packet is full. -/
def Drained (q : Port) (s : State) : Prop := s.fifo[q].sendableLength = 0 ∨ s.enc.groups = 4

/-- How often the drain loop of port `q` may still turn: once for each sendable byte, and to pad and to switch. -/
def turnsLeft (q : Port) (s : State) : Nat :=
  s.fifo[q].sendableLength + (if s.lastOutputPort = some q then 0 else if 10 ≤ s.enc.k then 2 else 1)

theorem turnsLeft_emitFifoByte (hq : t.lastOutputPort = some q) (hs : 0 < t.fifo[q].sendableLength) :
    turnsLeft q (emitFifoByte q t) < turnsLeft q t := by
  unfold turnsLeft
  rw [emitFifoByte_fifo, modFifo_self, OutFifo.sent_sendableLength, emitFifoByte_lastOutputPort, if_pos hq]
  omega

theorem turnsLeft_padGroup (hq : t.lastOutputPort ≠ some q) (hk : 10 ≤ t.enc.k) (hk' : t.enc.k < 12) :
    turnsLeft q (padGroup t) < turnsLeft q t := by
  rw [padGroup_eq t (by omega) hk', turnsLeft, turnsLeft, if_neg hq, if_neg hq, if_pos hk]
  exact Nat.lt_succ_self _

theorem turnsLeft_switchTo (hq : t.lastOutputPort ≠ some q) (hk : t.enc.k < 10) :
    turnsLeft q (switchTo q t) < turnsLeft q t := by
  rw [turnsLeft, turnsLeft, switchTo_fifo, switchTo_lastOutputPort, if_pos rfl, if_neg hq, if_neg (by omega)]
  exact Nat.lt_succ_self _

theorem drainLoop_drained (left : Nat) (h : PackedFrom s t) (hl : turnsLeft q t ≤ left) :
    Drained q (drainLoop q left t) := by
  induction left generalizing t with
  | zero => exact .inl (Nat.le_zero.1 ((Nat.le_add_right _ _).trans hl))
  | succ left ih =>
    rw [drainLoop]
    split
    · rename_i h0; exact .inl h0
    · rename_i h0
      split
      · rename_i h4; exact .inr h4
      · rename_i h4
        split
        · rename_i hq
          have hturn := turnsLeft_emitFifoByte hq (Nat.pos_of_ne_zero h0)
          exact ih (h.emitFifoByte q h4) (by omega)
        · rename_i hq
          split
          · rename_i hk
            have hturn := turnsLeft_padGroup hq hk h.whole.slots
            exact ih (h.padSlots group) (Nat.lt_succ_iff.1 (lt_of_lt_of_le hturn hl))
          · rename_i hk
            have hturn := turnsLeft_switchTo hq (Nat.lt_of_not_le hk)
            exact ih (h.switchTo q h4 (Nat.lt_of_not_le hk)) (by omega)

theorem drainPort_drained (q : Port) (h : PackedFrom s t) : Drained q (drainPort q t) := by
  refine drainLoop_drained _ h ?_
  unfold turnsLeft
  split
  · omega
  · split <;> omega

/-- The drain of a port leaves the FIFOs of the others. -/
theorem drainPort_fifo_ne (q' : Port) (h : PackedFrom s t) (hne : q' ≠ q) :
    (drainPort q t).fifo[q'] = t.fifo[q'] := by
  refine (drainLoop_keeps (fun u => PackedFrom s u ∧ u.fifo[q'] = t.fifo[q']) q ?_ ?_ ?_ _ t ⟨h, rfl⟩).2
  · rintro u ⟨hu, hf⟩ _ hg _
    refine ⟨hu.emitFifoByte q hg, ?_⟩
    rw [emitFifoByte_fifo, modFifo_ne q q' _ u hne, hf]
  · rintro u ⟨hu, hf⟩ _ _ hk
    have hpos : 0 < u.enc.k := lt_of_lt_of_le (by decide) hk
    refine ⟨hu.padSlots group, ?_⟩
    rw [padGroup_eq u hpos hu.whole.slots]
    exact hf
  · rintro u ⟨hu, hf⟩ _ hg hk
    refine ⟨hu.switchTo q hg hk, ?_⟩
    rw [switchTo_fifo, hf]

/-- A full packet takes no more bytes (45_p2_encoder.md R208). -/
theorem drainPort_of_full (q : Port) (h : t.enc.groups = 4) : drainPort q t = t := by
  rw [drainPort, drainLoop, if_pos (show t.enc.groups = maxSubframes from h), ite_self]

theorem Drained.drainPort (h : PackedFrom s t) {q' : Port} (hd : Drained q' t) : Drained q' (drainPort q t) := by
  by_cases hq : q' = q
  · subst hq
    exact drainPort_drained q' h
  · rcases hd with h0 | h4
    · exact .inl (by rw [drainPort_fifo_ne q' h hq, h0])
    · exact .inr (by rw [drainPort_of_full q h4, h4])

/-! ### The visit of all ports -/

theorem PackedFrom.visitPorts (ports : List Port) (h : PackedFrom s t) : PackedFrom s (visitPorts ports t) :=
  visitPorts_keeps (PackedFrom s) ports (fun q _ _ hu => hu.drainPort q) t h

theorem visitPorts_drained (ports : List Port) (h : PackedFrom s t) (q : Port) (hq : q ∈ ports) :
    Drained q (visitPorts ports t) := by
  induction ports generalizing t with
  | nil => cases hq
  | cons r ports ih =>
    have hr : PackedFrom s (drainPort r t) := h.drainPort r
    rw [Machine.visitPorts]
    split
    · rename_i hstop
      rw [packStopped, Bool.and_eq_true, beq_iff_eq] at hstop
      obtain ⟨hfull, _⟩ := hstop
      exact .inr hfull
    · rcases List.mem_cons.1 hq with rfl | hq
      · have hkeep := visitPorts_keeps (fun u => PackedFrom s u ∧ Drained q u) ports
          (fun _ _ _ ⟨hu, hd⟩ => ⟨hu.drainPort _, hd.drainPort hu⟩) _ ⟨hr, drainPort_drained q h⟩
        exact hkeep.2
      · exact ih hr hq

/-- The visit order holds every output port (45_p2_encoder.md R209). -/
theorem mem_visitOrder (s : State) (q : Port) (h : q.val < s.nOut.val) : q ∈ visitOrder s := by
  have hn : s.nOut.val ≤ 9 := Nat.lt_succ_iff.1 s.nOut.isLt
  unfold visitOrder
  generalize s.nOut.val = n at h hn
  generalize visitStart s = start
  have hstart : start % n < n := Nat.mod_lt _ (by omega)
  refine List.mem_map.2 ⟨(q.val + n - start % n) % n, List.mem_range.2 (Nat.mod_lt _ (by omega)), ?_⟩
  have hcycle : (start + (q.val + n - start % n) % n) % n = q.val := by
    calc (start + (q.val + n - start % n) % n) % n
        = (start % n + (q.val + n - start % n)) % n := by rw [Nat.add_mod_mod, Nat.mod_add_mod]
      _ = (q.val + n) % n := by rw [Nat.add_sub_cancel' (by omega)]
      _ = q.val := by rw [Nat.add_mod_right, Nat.mod_eq_of_lt h]
  rw [hcycle]
  exact Fin.ext (Nat.mod_eq_of_lt q.isLt)

/-- Everything `Pack` does to an empty packet: it leaves whole groups, none of them open, and sendable bytes only where
the packet is full. -/
theorem pack_whole (h : s.enc = EncState.init) :
    PackedFrom s (pack s) ∧ (pack s).enc.k = 0 ∧ ∀ q : Port, q.val < s.nOut.val → Drained q (pack s) := by
  have hvisit : PackedFrom s (visitPorts (visitOrder s) s) := (PackedFrom.start h).visitPorts _
  have hdrained (q : Port) (hq : q.val < s.nOut.val) : Drained q (visitPorts (visitOrder s) s) :=
    visitPorts_drained _ (PackedFrom.start h) q (mem_visitOrder s q hq)
  unfold pack
  generalize visitPorts (visitOrder s) s = u at hvisit hdrained
  dsimp only
  split
  · rename_i hk
    refine ⟨hvisit.padSlots group, ?_, fun q hq => .inl ?_⟩
    · rw [padGroup_eq u hk hvisit.whole.slots]
    · rw [padGroup_eq u hk hvisit.whole.slots]
      refine (hdrained q hq).resolve_right fun h4 => ?_
      rw [hvisit.whole.full h4] at hk
      exact lt_irrefl 0 hk
  · rename_i hk
    exact ⟨hvisit, Nat.eq_zero_of_not_pos hk, hdrained⟩

/-! ### The encoder invocation -/

/-- An encoder invocation that is due runs with `active` clear. -/
theorem exec_of_encodes {i : Instr} (h : Encodes i s) :
    exec i s = .next (accept (encodePacket (setActive false s))) := by
  obtain ⟨ho, hlegal, ⟨rfl, ha⟩ | ⟨ok, rfl, ha⟩⟩ := h
  · have hs : setActive false s = s := by rw [setActive, ← ha]
    simp [exec, execTxKick, encodeOrRefuse, ho, ha, hlegal, hs]
  · have hlegal' : answersLegal (setActive false s) = true := hlegal
    simp [exec, execTxDone, encodeOrRefuse, ho, ha, hlegal']

/-- What stands before the submission of an encoder invocation: the pull phase's events, whole groups, and sendable
bytes only where the packet is full. -/
structure Assembled (s u : State) : Prop where
  frame : u = { s with
    fifo := u.fifo, enc := u.enc, lastOutputPort := u.lastOutputPort, active := false
    events := s.events ++ p2PullEvents s }
  whole : WholeGroups u.enc
  closed : u.enc.k = 0
  idle : u.enc.out = [] → u.lastOutputPort = s.lastOutputPort
  drained : ∀ q : Port, q.val < s.nOut.val → Drained q u

theorem p2Encode_assembled (hv : s.variant = .p2) (hok : FifoOk s) :
    ∃ u, Assembled s u ∧ p2Encode (setActive false s) = setEnc EncState.init (p2Submit u) := by
  obtain ⟨F, hpull⟩ := p2Pull_frame (setEnc EncState.init (setActive false s)) hv hok
  obtain ⟨hpacked, hk, hdrained⟩ :=
    pack_whole (s := p2Pull (setEnc EncState.init (setActive false s))) (by rw [hpull]; rfl)
  refine ⟨_, ⟨?_, hpacked.whole, hk, fun h0 => ?_, fun q hq => hdrained q ?_⟩, rfl⟩
  · have hframe := hpacked.frame
    generalize pack (p2Pull (setEnc EncState.init (setActive false s))) = u at hframe
    rw [hpull] at hframe
    exact hframe
  · rw [hpacked.idle h0, hpull]
    rfl
  · rw [hpull]
    exact hq

/-- A packet with no bytes has no group. -/
theorem WholeGroups.groups_eq_zero_iff {e : EncState} (h : WholeGroups e) (hk : e.k = 0) :
    e.groups = 0 ↔ e.out = [] := by
  have hlen := h.length
  rw [← List.length_eq_zero_iff]
  omega

theorem p2Submit_of_empty (h : t.enc.out = []) : p2Submit t = t := if_pos h

theorem p2Submit_of_ne (h : t.enc.out ≠ []) : p2Submit t = { t with
    active := t.active || t.env.accept
    events := t.events ++ submitEvents 2 t.enc.out (p2Subframes t.enc.groups) t.env.accept } :=
  (if_neg h).trans (submit_eq 2 _ t)

/-- Settles O48: the pull phase asks each port once (`p2Pull_frame`), and what `Pack` assembles is whole groups
(`pack_whole`), which are submitted as they stand. -/
theorem p2PacketIsWholeGroups : Obligations.P2PacketIsWholeGroups := by
  intro s i henc hv hok
  obtain ⟨u, hu, hencode⟩ := p2Encode_assembled hv hok
  have hexec : exec i s = .next (accept (setEnc EncState.init (p2Submit u))) := by
    rw [exec_of_encodes henc, encodePacket, setActive_variant, hv, ← hencode]
  have hframe := hu.frame
  have hgroups := hu.whole.groups_eq_zero_iff hu.closed
  by_cases hout : u.enc.out = []
  · rw [p2Submit_of_empty hout] at hexec
    have hsend (q : Port) (hq : q.val < s.nOut.val) : u.fifo[q].sendableLength = 0 :=
      (hu.drained q hq).resolve_right (by rw [hgroups.2 hout]; decide)
    refine ⟨_, [], hexec, ?_, rfl, ?_, .inl ⟨rfl, ?_, hu.idle hout, hsend⟩⟩
    · rw [accept_events, setEnc_events, hframe, List.append_nil]
    · rw [hframe]; rfl
    · rw [accept_active, setEnc_active, hframe]
  · rw [p2Submit_of_ne hout] at hexec
    have henv : u.env = s.env := by rw [hframe]
    have hactive : u.active = false := by rw [hframe]
    have hevents : u.events = s.events ++ p2PullEvents s := by rw [hframe]
    refine ⟨_, submitEvents 2 u.enc.out (p2Subframes u.enc.groups) s.env.accept, hexec, ?_, rfl, ?_,
      .inr ⟨u.enc.out, u.enc.groups, Nat.pos_of_ne_zero fun h0 => hout (hgroups.1 h0), hu.whole.atMost, ?_,
        hu.whole.trailers, rfl, ?_, ?_⟩⟩
    · rw [accept_events, setEnc_events, henv, hevents]
    · rw [hframe]; rfl
    · rw [hu.whole.length, hu.closed, Nat.add_zero]
    · rw [accept_active, setEnc_active, henv, hactive, Bool.false_or]
    · by_cases h4 : u.enc.groups = 4
      · exact .inl h4
      · exact .inr fun q hq => (hu.drained q hq).resolve_right h4

end Sys2Proof.Machine
end

section
/-! PROOFS. The answers of the command-length table, row by row (40_length_table.md R121 to R125, R127). -/

namespace Sys2Proof.Machine

variable {s : State} {i : Instr} {b : Byte}

/-! ### A query -/

/-- Every row of context `lengthOf` latches the length of the byte it stands for, and writes nothing else
(40_length_table.md R120). -/
theorem exec_of_lengthOf {c : LenClass} (hi : Context.lengthOf.admits i = true) (hb : encode i = [b])
    (hc : lengthOf s.lenTable b = c) : exec i s = .next { s with lenAnswer := some c } := by
  have hquery : exec i s = .next (queryLength b s) := by
    cases i with
    | lenData | lenChan8 | lenChan9 | lenChanA | lenChanB | lenChanC | lenChanD | lenChanE | lenSysex | lenSysF1
    | lenSysF2 | lenSysF3 | lenSysF4 | lenSysF5 | lenSysF6 | lenSysF7 | lenSysF8 | lenSysF9 | lenSysFA | lenSysFB
    | lenSysFC | lenSysFD | lenSysFE | lenFF => cases hb; rfl
    | _ => cases hi
  rw [hquery, queryLength, hc, setLenAnswer]

/-! ### The bytes of no fixed length (40_length_table.md R121, R123, R125) -/

theorem lengthOf_eq_variableLen_iff (t : LenTable) (b : Byte) : lengthOf t b = .variableLen ↔ b = 0xF0 := by
  refine ⟨fun h => ?_, fun h => h ▸ lengthOf_sysex t⟩
  by_contra h0
  by_cases hd : b.toNat < 0x80
  · cases h.symm.trans (lengthOf_data t b hd)
  by_cases hff : b = 0xFF
  · subst hff
    cases h.symm.trans (lengthOf_ff t)
  obtain ⟨n, hn⟩ := lengthOf_status t b ((isStatus_iff b).2 (Nat.le_of_not_lt hd)) h0 hff
  cases h.symm.trans hn

/-- Settles O13: each row's class is that of its byte, and every status byte but `F0` and `FF` has a fixed length. -/
theorem nonFixedLengths : Obligations.NonFixedLengths := fun s b =>
  ⟨fun hb => exec_of_lengthOf rfl rfl (lengthOf_data _ b hb), exec_of_lengthOf rfl rfl (lengthOf_sysex _),
    exec_of_lengthOf rfl rfl (lengthOf_ff _), lengthOf_eq_variableLen_iff s.lenTable b⟩

/-! ### The table's entries (40_length_table.md R127) -/

theorem chan_of_wf {t : LenTable} (h : t.wf = true) (k : Fin 7) : t.chan[k] = 2 ∨ t.chan[k] = 3 := by
  simp only [LenTable.wf, Bool.and_eq_true, List.all_eq_true, Bool.or_eq_true, beq_iff_eq] at h
  obtain ⟨hchan, _⟩ := h
  exact hchan t.chan[k] (by simp)

theorem sys_of_wf {t : LenTable} (h : t.wf = true) (k : Fin 14) : t.sys[k] = 1 ∨ t.sys[k] = 2 := by
  simp only [LenTable.wf, Bool.and_eq_true, List.all_eq_true, Bool.or_eq_true, beq_iff_eq] at h
  obtain ⟨_, hsys⟩ := h
  exact hsys t.sys[k] (by simp)

/-! ### Channel status bytes (40_length_table.md R122) -/

/-- The sixteen status bytes of the high nibble `8 + k` have the length of the table's entry `k`. -/
theorem lengthOf_chanEntry (t : LenTable) (b : Byte) (k : Fin 7) (hb : b.toNat / 16 = 8 + k.val) :
    lengthOf t b = .fixed t.chan[k] := by
  have hk : b.toNat / 16 - 8 = k.val := by omega
  rw [lengthOf_chan t b (by omega) (by omega), chanLen, hk]
  simp

/-- A row that stands for the status bytes of the high nibble `8 + k` answers the table's entry `k`. -/
theorem exec_chanRow (k : Fin 7) (hi : Context.lengthOf.admits i = true) (hb : encode i = [b])
    (hrow : matchesRow b (BitVec.ofNat 8 (16 * (8 + k.val))) 0xF0 = true) :
    exec i s = .next { s with lenAnswer := some (.fixed s.lenTable.chan[k]) } :=
  exec_of_lengthOf hi hb (lengthOf_chanEntry _ b k ((matchesRow_chan b ⟨8 + k.val, by omega⟩).1 hrow))

/-- Settles O11: the row of a high nibble holds the sixteen bytes of that nibble, which share one table entry. -/
theorem channelStatusLengths : Obligations.ChannelStatusLengths :=
  ⟨fun _ _ hwf =>
    ⟨exec_chanRow 0 rfl rfl, exec_chanRow 1 rfl rfl, exec_chanRow 2 rfl rfl, exec_chanRow 3 rfl rfl,
      exec_chanRow 4 rfl rfl, exec_chanRow 5 rfl rfl, exec_chanRow 6 rfl rfl, chan_of_wf hwf⟩,
    rfl⟩

/-! ### System bytes F1..FE (40_length_table.md R124) -/

/-- The byte `F1 + k` has the length of the table's entry `k`. -/
theorem lengthOf_sysEntry (t : LenTable) (k : Fin 14) :
    lengthOf t (BitVec.ofNat 8 (0xF1 + k.val)) = .fixed t.sys[k] := by
  have hb : (BitVec.ofNat 8 (0xF1 + k.val)).toNat = 0xF1 + k.val := by
    rw [BitVec.toNat_ofNat]
    omega
  rw [lengthOf_sys t _ (by omega) (by omega), sysLen, hb, Nat.add_sub_cancel_left]
  simp

/-- A row that stands for the byte `F1 + k` answers the table's entry `k`. -/
theorem exec_sysRow (k : Fin 14) (hi : Context.lengthOf.admits i = true)
    (hb : encode i = [BitVec.ofNat 8 (0xF1 + k.val)]) :
    exec i s = .next { s with lenAnswer := some (.fixed s.lenTable.sys[k]) } :=
  exec_of_lengthOf hi hb (lengthOf_sysEntry _ k)

/-- Settles O12: the row of each byte F1..FE stands for that byte alone, which has a table entry of its own. -/
theorem systemByteLengths : Obligations.SystemByteLengths :=
  ⟨fun _ hwf =>
    ⟨exec_sysRow 0 rfl rfl, exec_sysRow 1 rfl rfl, exec_sysRow 2 rfl rfl, exec_sysRow 3 rfl rfl,
      exec_sysRow 4 rfl rfl, exec_sysRow 5 rfl rfl, exec_sysRow 6 rfl rfl, exec_sysRow 7 rfl rfl,
      exec_sysRow 8 rfl rfl, exec_sysRow 9 rfl rfl, exec_sysRow 10 rfl rfl, exec_sysRow 11 rfl rfl,
      exec_sysRow 12 rfl rfl, exec_sysRow 13 rfl rfl, sys_of_wf hwf⟩,
    rfl⟩

end Sys2Proof.Machine
end

section
/-! PROOFS. Each byte row of the two decoders and of a push is the byte step of its byte (30_encoding.md R99,
41_p1_decoder.md R130, 43_p2_decoder.md R165, 44_p2_fifo.md R190, R191), and what each row of the P1 decoder does
(41_p1_decoder.md R132 to R141). -/

namespace Sys2Proof.Machine

variable {s : State} {m : MaskPort}

/-! ### The contexts of the P1 decoder -/

theorem inP1Mask_eq_true (ho : s.sessionOpen = true) (hv : s.variant = .p1) (hd : s.scan.inData = false) :
    inP1Mask s = true := by
  simp [inP1Mask, inSession, ho, hv, hd]

theorem inP1Payload_eq (cond : InRec → Bool) (ho : s.sessionOpen = true) (hv : s.variant = .p1)
    (hd : s.scan.inData = true) (hi : payloadPort s = some m) : inP1Payload cond s = cond s.ia[m.port] := by
  simp [inP1Payload, inSession, ho, hv, hd, hi]

/-- A row of `P1.payload` runs where its condition holds of the record of the port that takes the byte. -/
theorem payloadRow_next {row : String} {cond : InRec → Bool} {classify : MaskPort → State → State}
    (ho : s.sessionOpen = true) (hv : s.variant = .p1) (hd : s.scan.inData = true) (hi : payloadPort s = some m)
    (hcond : cond s.ia[m.port] = true) :
    whenSelected row (inP1Payload cond s) (payloadStep classify s) = .next (payloadStep classify s) :=
  (whenSelected_next _ _ _ _).2 ⟨(inP1Payload_eq cond ho hv hd hi).trans hcond, rfl⟩

/-- Settles O15: both rows are selected out of data mode. -/
theorem maskByteOpensAGroup : Obligations.MaskByteOpensAGroup := by
  intro s b ho hv hd
  have hin : inP1Mask s = true := inP1Mask_eq_true ho hv hd
  exact ⟨(whenSelected_next _ _ _ _).2 ⟨hin, rfl⟩, fun _ => (whenSelected_next _ _ _ _).2 ⟨hin, rfl⟩⟩

/-! ### The case of a payload byte -/

@[simp] theorem takePort_ia (i : MaskPort) (s : State) : (takePort i s).ia = s.ia := rfl

@[simp] theorem takePort_lenTable (i : MaskPort) (s : State) : (takePort i s).lenTable = s.lenTable := rfl

theorem appendAndClassify_status (b : Byte) (i : MaskPort) (s : State) (h : (Instr.p1PayStatus b).wf = true) :
    appendAndClassify b i s = p1Status b i s := by
  simp only [Instr.wf, Bool.and_eq_true, bne_iff_ne] at h
  obtain ⟨⟨hs, h0⟩, hf⟩ := h
  obtain ⟨n, hn⟩ := lengthOf_status s.lenTable b hs h0 hf
  rw [appendAndClassify, if_pos hs, hn]

theorem appendAndClassify_sysex (i : MaskPort) (s : State) : appendAndClassify sysexBegin i s = p1Sysex i s := by
  have hs : isStatus sysexBegin = true := by decide
  rw [appendAndClassify, if_pos hs, lengthOf_sysex]

theorem appendAndClassify_notACommand (i : MaskPort) (s : State) :
    appendAndClassify nonCommand i s = p1NotACommand nonCommand i s := by
  have hs : isStatus nonCommand = true := by decide
  rw [appendAndClassify, if_pos hs, lengthOf_ff]

/-- Which case a data byte is in is said by the record of its port (41_p1_decoder.md R138 to R140). -/
theorem appendAndClassify_data (b : Byte) (i : MaskPort) (s : State) (h : ¬ isStatus b = true) :
    appendAndClassify b i s =
      if 0 < s.ia[i.port].bytesRemaining then p1DataInProgress b i s
      else if hasRunningStatus (lengthOf s.lenTable s.ia[i.port].lastCommand) then p1RunningStatus b i s
      else p1NoContext b i s := by
  rw [appendAndClassify, if_neg h]

theorem payloadStep_congr {f g : MaskPort → State → State} (hi : payloadPort s = some m)
    (h : f m (takePort m s) = g m (takePort m s)) : payloadStep f s = payloadStep g s := by
  simp only [payloadStep, hi, h]

/-- A row of `P1.payload` whose case is the one of its byte is the byte step. -/
theorem payloadRow_eq_p1Byte {row : String} {cond : InRec → Bool} {classify : MaskPort → State → State} (b : Byte)
    (ho : s.sessionOpen = true) (hv : s.variant = .p1) (hd : s.scan.inData = true) (hi : payloadPort s = some m)
    (hcond : cond s.ia[m.port] = true)
    (hcase : appendAndClassify b m (takePort m s) = classify m (takePort m s)) :
    whenSelected row (inP1Payload cond s) (payloadStep classify s) = .next (p1Byte b s) := by
  rw [payloadRow_next ho hv hd hi hcond, p1Byte, if_pos hd, payloadStep_congr hi hcase]

/-! ### The byte steps of the decoders -/

theorem exec_decodeP1Mask (b : Byte) (ho : s.sessionOpen = true) (hv : s.variant = .p1) (hd : s.scan.inData = false) :
    exec (decodeP1Mask b) s = .next (p1Byte b s) := by
  have hin : inP1Mask s = true := inP1Mask_eq_true ho hv hd
  have hdata : ¬ s.scan.inData = true := by simp [hd]
  rw [p1Byte, if_neg hdata]
  unfold decodeP1Mask
  split <;> exact (whenSelected_next _ _ _ _).2 ⟨hin, rfl⟩

theorem exec_decodeP1Payload (b : Byte) (ho : s.sessionOpen = true) (hv : s.variant = .p1)
    (hd : s.scan.inData = true) (hi : payloadPort s = some m) :
    exec (decodeP1Payload s.ia[m.port].bytesRemaining (lengthOf s.lenTable s.ia[m.port].lastCommand) b) s =
      .next (p1Byte b s) := by
  unfold decodeP1Payload
  split
  · rename_i h0
    subst h0
    exact payloadRow_eq_p1Byte _ ho hv hd hi rfl (appendAndClassify_sysex _ _)
  · rename_i h0
    split
    · rename_i hf
      subst hf
      exact payloadRow_eq_p1Byte _ ho hv hd hi rfl (appendAndClassify_notACommand _ _)
    · rename_i hf
      split
      · rename_i hs
        have hwf : (Instr.p1PayStatus b).wf = true := by
          simp only [Instr.wf, Bool.and_eq_true, bne_iff_ne]
          exact ⟨⟨hs, h0⟩, hf⟩
        exact payloadRow_eq_p1Byte b ho hv hd hi rfl (appendAndClassify_status b _ _ hwf)
      · rename_i hs
        have hdata := appendAndClassify_data b m (takePort m s) hs
        rw [takePort_ia, takePort_lenTable] at hdata
        split
        · rename_i hr
          exact payloadRow_eq_p1Byte b ho hv hd hi (decide_eq_true hr) (hdata.trans (if_pos hr))
        · rename_i hr
          have hzero : s.ia[m.port].bytesRemaining = 0 := Nat.eq_zero_of_not_pos hr
          rw [if_neg hr] at hdata
          split
          · rename_i hrun
            exact payloadRow_eq_p1Byte b ho hv hd hi (by simp [-Fin.getElem_fin, hzero, hrun])
              (hdata.trans (if_pos hrun))
          · rename_i hrun
            exact payloadRow_eq_p1Byte b ho hv hd hi (by simp [-Fin.getElem_fin, hzero, hrun])
              (hdata.trans (if_neg hrun))

/-- In Data, FixedLen and SysEx the port is there (10_state.md R29). -/
theorem exists_selectedPort (h : p2Consistent s = true) (hw : s.p2State ≠ .waitMarker)
    (hp : s.p2State ≠ .portSelect) : ∃ p, s.selectedPort = some p := by
  cases hsel : s.selectedPort with
  | some p => exact ⟨p, rfl⟩
  | none => cases hst : s.p2State <;> simp [p2Consistent, hst, hsel] at h hw hp

theorem inP2_eq_true {st : P2State} (ho : s.sessionOpen = true) (hv : s.variant = .p2) (hst : s.p2State = st) :
    inP2 st s = true := by
  simp [inP2, inSession, ho, hv, hst]

/-- A row of Data, FixedLen or SysEx runs on the selected port. -/
theorem onSelected_eq {row : String} {st : P2State} {f : Port → State → State} (hin : inP2 st s = true)
    (hp : ∃ p, s.selectedPort = some p) : onSelected row st f s = .next (withSelected f s) := by
  obtain ⟨p, hp⟩ := hp
  refine (onSelected_next _ _ _ _ _).2 ⟨p, hp, hin, ?_⟩
  simp only [withSelected, hp]

theorem exec_decodeP2 (b : Byte) (ho : s.sessionOpen = true) (hv : s.variant = .p2) (hc : p2Consistent s = true) :
    exec (decodeP2 s.p2State s.nIn b) s = .next (p2Byte b s) := by
  have hport := exists_selectedPort hc
  have hin := inP2_eq_true ho hv (rfl : s.p2State = s.p2State)
  unfold decodeP2 p2Byte
  by_cases hf : b = filler
  · rw [if_pos hf, if_pos hf]
    exact (whenSelected_next _ _ _ _).2 ⟨(inSession_iff _ _).2 ⟨ho, hv⟩, rfl⟩
  · rw [if_neg hf, if_neg hf]
    cases hst : s.p2State <;> rw [hst] at hport hin
    case waitMarker =>
      dsimp only
      split <;> exact (whenSelected_next _ _ _ _).2 ⟨hin, rfl⟩
    case portSelect =>
      dsimp only
      cases hp : validPort s.nIn b with
      | none =>
        exact (whenSelected_next _ _ _ _).2 ⟨by simp [hin, hp], rfl⟩
      | some p =>
        refine Eq.trans ?_ ((whenSelected_next "P2.SEL.VALID" _ _ _).2 ⟨hin, rfl⟩)
        simp only [Option.isSome_some, if_true, exec, execP2SelValid, hp]
    case data =>
      dsimp only
      split <;> exact onSelected_eq hin (hport (by decide) (by decide))
    case fixedLen => exact onSelected_eq hin (hport (by decide) (by decide))
    case sysEx =>
      dsimp only
      split <;> exact onSelected_eq hin (hport (by decide) (by decide))

/-! ### A pushed byte -/

theorem fifoPush_singleton (q : Port) (b : Byte) (s : State) :
    fifoPush q [b] s = pushOne q b (OutFifo.pushClassify s.lenTable b) s := by
  rw [fifoPush, fifoPush]
  split
  · rename_i h; rw [pushOne, if_pos h]
  · rfl

/-- A row of `FIFO.push` whose case is the one of its byte is the push of that byte. -/
theorem pushRow_eq_fifoPush {q : Port} {row : String} {cond : Bool} {classify : OutFifo → OutFifo} (b : Byte)
    (hcond : cond = true)
    (hcase : (s.fifo[q].write b).pushClassify s.lenTable b = classify (s.fifo[q].write b)) :
    whenSelected row cond (pushOne q b classify s) = .next (fifoPush q [b] s) := by
  refine (whenSelected_next _ _ _ _).2 ⟨hcond, ?_⟩
  rw [fifoPush_singleton, pushOne, pushOne, modFifo, modFifo, hcase]

theorem pushClassify_status (t : LenTable) (b : Byte) (f : OutFifo) (h : (Instr.fifoStatus 0 b).wf = true) :
    f.pushClassify t b = f.pushedStatus (dataBytesOf (lengthOf t b)) := by
  simp only [Instr.wf, Bool.and_eq_true, bne_iff_ne] at h
  obtain ⟨⟨⟨hs, h0⟩, h7⟩, hf⟩ := h
  obtain ⟨n, hn⟩ := lengthOf_status t b hs h0 hf
  rw [OutFifo.pushClassify, if_neg h0, if_neg h7, if_pos hs, hn]
  rfl

theorem pushClassify_notACommand (t : LenTable) (f : OutFifo) :
    f.pushClassify t nonCommand = f.pushedNotACommand := by
  have hs : isStatus nonCommand = true := by decide
  rw [OutFifo.pushClassify, if_neg (by decide), if_neg (by decide), if_pos hs, lengthOf_ff]

theorem pushClassify_data (t : LenTable) (b : Byte) (f : OutFifo) (h0 : b ≠ sysexBegin) (h7 : b ≠ sysexEnd)
    (hs : ¬ isStatus b = true) :
    f.pushClassify t b = if 0 < f.commandSpanLength then f.pushedDataSpan else f.pushedDataNospan := by
  rw [OutFifo.pushClassify, if_neg h0, if_neg h7, if_neg hs]

theorem exec_decodeFifo (q : Port) (b : Byte) (hin : inFifoPush q s = true) :
    exec (decodeFifo q s.fifo[q].commandSpanLength b) s = .next (fifoPush q [b] s) := by
  unfold decodeFifo
  split
  · rename_i h0
    subst h0
    exact pushRow_eq_fifoPush _ hin rfl
  · rename_i h0
    split
    · rename_i h7
      subst h7
      exact pushRow_eq_fifoPush _ hin rfl
    · rename_i h7
      split
      · rename_i hf
        subst hf
        exact pushRow_eq_fifoPush _ hin (pushClassify_notACommand _ _)
      · rename_i hf
        split
        · rename_i hs
          have hwf : (Instr.fifoStatus 0 b).wf = true := by
            simp only [Instr.wf, Bool.and_eq_true, bne_iff_ne]
            exact ⟨⟨⟨hs, h0⟩, h7⟩, hf⟩
          exact pushRow_eq_fifoPush b hin (pushClassify_status _ b _ hwf)
        · rename_i hs
          have hdata := pushClassify_data s.lenTable b (s.fifo[q].write b) h0 h7 hs
          split
          · rename_i hspan
            exact pushRow_eq_fifoPush b (by simp [-Fin.getElem_fin, hin, hspan]) (hdata.trans (if_pos hspan))
          · rename_i hspan
            have hzero : s.fifo[q].commandSpanLength = 0 := Nat.eq_zero_of_not_pos hspan
            exact pushRow_eq_fifoPush b (by simp [-Fin.getElem_fin, hin, hzero]) (hdata.trans (if_neg hspan))

/-! ### Every byte -/

/-- What a decoder byte's row does in a session of P1. -/
theorem exec_rxByte_p1 {c : Context} {b : Byte} {i : Instr} (hv : s.variant = .p1) (hctx : rxContext s = some c)
    (hdec : decode c [b] = .ok i) : exec i s = .next (p1Byte b s) := by
  unfold rxContext at hctx
  split at hctx
  · rename_i ho
    rw [hv] at hctx
    dsimp only at hctx
    split at hctx
    · rename_i hd
      split at hctx <;> cases hctx
      rename_i m hi
      cases hdec
      exact exec_decodeP1Payload b ho hv hd hi
    · rename_i hd
      cases hctx
      cases hdec
      exact exec_decodeP1Mask b ho hv (by simpa using hd)
  · cases hctx

/-- What a decoder byte's row does in a session of P2. -/
theorem exec_rxByte_p2 {c : Context} {b : Byte} {i : Instr} (hv : s.variant = .p2) (hc : p2Consistent s = true)
    (hctx : rxContext s = some c) (hdec : decode c [b] = .ok i) : exec i s = .next (p2Byte b s) := by
  unfold rxContext at hctx
  split at hctx
  · rename_i ho
    rw [hv] at hctx
    cases hctx
    cases hdec
    exact exec_decodeP2 b ho hv hc
  · cases hctx

/-- Settles O6: in each context, the row that a byte decodes to runs the case of that byte. -/
theorem everyByteStepRunsItsRow : Obligations.EveryByteStepRunsItsRow := by
  refine ⟨fun s c b i hctx hc hdec => ?_, fun s q b i ho hv hq hdec => ?_⟩
  · cases hv : s.variant with
    | p1 => exact exec_rxByte_p1 hv hctx hdec
    | p2 => exact exec_rxByte_p2 hv (hc hv) hctx hdec
  · cases hdec
    exact exec_decodeFifo q b (by simp [inFifoPush, inSession, ho, hv, hq])

end Sys2Proof.Machine
end

section
/-! PROOFS. What a payload byte does to the record of its port, case by case (41_p1_decoder.md R133, R135 to R141). -/

namespace Sys2Proof.Machine

variable {s : State} {m : MaskPort}

/-! ### The frame of a payload byte -/

theorem OnlyInput.trans {p : Port} {s t u : State} (h : OnlyInput p s t) (h' : OnlyInput p t u) :
    OnlyInput p s u := by
  obtain ⟨heq, hne⟩ := h
  obtain ⟨heq', hne'⟩ := h'
  exact ⟨by rw [heq', heq], fun p' hp => (hne' p' hp).trans (hne p' hp)⟩

theorem takePort_onlyInput (p : Port) (i : MaskPort) (s : State) : OnlyInput p s (takePort i s) :=
  ⟨rfl, fun _ _ => rfl⟩

theorem leaveData_onlyInput (p : Port) (s : State) : OnlyInput p s (leaveData s) := by
  unfold leaveData
  split <;> exact ⟨rfl, fun _ _ => rfl⟩

theorem writePort_ia (i : MaskPort) (x : InRec × Bool) (s : State) :
    (writePort i x s).ia = (modIn i.port (fun _ => x.1) s).ia := by
  unfold writePort
  split <;> rfl

theorem writePort_onlyInput (i : MaskPort) (x : InRec × Bool) (s : State) : OnlyInput i.port s (writePort i x s) := by
  refine ⟨?_, fun p' hp => ?_⟩
  · unfold writePort
    split <;> rfl
  · rw [writePort_ia]
    exact modIn_ne i.port p' _ s hp

theorem takeByte_onlyInput (i : MaskPort) (b : Byte) (s : State) : OnlyInput i.port s (takeByte i b s) := by
  unfold takeByte
  split
  · exact takePort_onlyInput _ i s
  · exact (takePort_onlyInput _ i s).trans (writePort_onlyInput i _ _)

@[simp] theorem leaveData_ia (s : State) : (leaveData s).ia = s.ia := by
  unfold leaveData; split <;> rfl

@[simp] theorem leaveData_discard (s : State) : (leaveData s).scan.discard = s.scan.discard := by
  unfold leaveData; split <;> rfl

/-- Settles O16: every row is the byte step of its byte (O6), which takes the port's bit and writes at most the port's
record. -/
theorem payloadByteGoesToTheNextMaskPort : Obligations.PayloadByteGoesToTheNextMaskPort := by
  intro s c b i m hv hd hi hctx hdec
  refine ⟨leaveData (takeByte m b s), ?_, ?_, ?_, ?_, ?_, fun hdisc => ?_⟩
  · rw [exec_rxByte_p1 hv hctx hdec, p1Byte_payload m s b hd hi]
  · exact (takeByte_onlyInput m b s).trans (leaveData_onlyInput _ _)
  · rw [leaveData_mask, takeByte_mask]
  · rw [leaveData_channel, takeByte_channel]
  · rw [leaveData_inData _ ((takeByte_inData m s b).trans hd), takeByte_mask]
  · have hdrop : takeByte m b s = takePort m s := if_pos hdisc
    rw [hdrop, leaveData_ia, leaveData_events, leaveData_discard]
    exact ⟨rfl, rfl, rfl⟩

/-! ### The outcome of a case -/

/-- In data mode the scan leaves it exactly when no bit of the mask is left. -/
theorem leaveData_scan {s : State} (hd : s.scan.inData = true) :
    (leaveData s).scan = { s.scan with inData := decide (s.scan.mask ≠ 0x00) } := by
  unfold leaveData
  split
  · rename_i hm; simp [setInData, hm]
  · rename_i hm; rw [decide_eq_true hm, ← hd]

/-- What a payload byte for port `m` leaves, where its case makes the port's record `x.1` and `x.2` says that the byte
overflowed. -/
def payloadOutcome (m : MaskPort) (x : InRec × Bool) (s : State) : State := leaveData (writePort m x (takePort m s))

/-- A row of `P1.payload` leaves the outcome of its case. -/
theorem payloadRow_outcome {row : String} {cond : InRec → Bool} {classify : MaskPort → State → State}
    (h : OwedTo m s) (hcond : cond s.ia[m.port] = true) (x : InRec × Bool)
    (hcase : classify m (takePort m s) = writePort m x (takePort m s)) :
    whenSelected row (inP1Payload cond s) (payloadStep classify s) = .next (payloadOutcome m x s) := by
  obtain ⟨ho, hv, hd, hi, hdisc⟩ := h
  have hopen : ¬ discarding m (takePort m s) = true := Bool.eq_false_iff.1 hdisc
  rw [payloadRow_next ho hv hd hi hcond, payloadStep, hi]
  dsimp only
  rw [if_neg hopen, hcase, payloadOutcome]

theorem payloadOutcome_onlyInput (m : MaskPort) (x : InRec × Bool) (s : State) :
    OnlyInput m.port s (payloadOutcome m x s) :=
  ((takePort_onlyInput _ m s).trans (writePort_onlyInput m x _)).trans (leaveData_onlyInput _ _)

theorem payloadOutcome_scan (h : OwedTo m s) (x : InRec × Bool) :
    (payloadOutcome m x s).scan =
      if x.2 then { scanAfter m s.scan with discard := s.scan.discard.set m true } else scanAfter m s.scan := by
  obtain ⟨_, _, hd, _, _⟩ := h
  rw [payloadOutcome, leaveData_scan ((writePort_inData m x (takePort m s)).trans hd), writePort]
  split <;> rfl

theorem payloadOutcome_record (m : MaskPort) (x : InRec × Bool) (s : State) :
    (payloadOutcome m x s).ia[m.port] = x.1 := by
  rw [payloadOutcome, leaveData_ia, writePort_ia]
  exact modIn_self m.port (fun _ => x.1) (takePort m s)

/-- A byte that was appended leaves no report. -/
theorem payloadOutcome_events (m : MaskPort) (r : InRec) (s : State) :
    (payloadOutcome m (r, false) s).events = s.events := leaveData_events _

/-- A byte that overflowed (41_p1_decoder.md R141). -/
theorem payloadOutcome_overflowed (h : OwedTo m s) (r : InRec) :
    OverflowedP1 m r.lastCommand s (payloadOutcome m (r.resetRecord, true) s) := by
  refine ⟨payloadOutcome_onlyInput m _ s, leaveData_events _, payloadOutcome_scan h _, ?_⟩
  rw [payloadOutcome_record]
  exact ⟨rfl, rfl, rfl, rfl⟩

/-! ### One append and a deliverable buffer (R135 to R137, R140) -/

theorem InRec.appendThen_full {r : InRec} (b : Byte) (next : InRec → InRec × Bool) (h : r.length = 64) :
    r.appendThen b next = (r.resetRecord, true) := if_pos h

theorem InRec.appendThen_room {r : InRec} (b : Byte) (next : InRec → InRec × Bool) (h : r.length ≠ 64) :
    r.appendThen b next = next (r.push b) := if_neg h

/-- The record `r` stands for the port's record with the registers that the case has written before the append. -/
theorem deliverable_outcome {i : Instr} {b : Byte} (h : OwedTo m s) (r : InRec) (hl : r.length ≤ 64)
    (hexec : exec i s = .next (payloadOutcome m (r.thenDeliverable b) s)) :
    ∃ t, exec i s = .next t ∧
      if r.length = 64 then OverflowedP1 m r.lastCommand s t
      else
        OnlyInput m.port s t ∧ t.events = s.events ∧ t.scan = scanAfter m s.scan ∧
        t.ia[m.port].lastCommand = r.lastCommand ∧ t.ia[m.port].bytesRemaining = r.bytesRemaining ∧
        t.ia[m.port].bytes = r.bytes ++ [b] ∧ t.ia[m.port].length = r.length + 1 ∧
        t.ia[m.port].deliverableLength = r.length + 1 := by
  refine ⟨_, hexec, ?_⟩
  split
  · rename_i hfull
    rw [InRec.thenDeliverable, InRec.appendThen_full b _ hfull]
    exact payloadOutcome_overflowed h r
  · rename_i hroom
    rw [InRec.thenDeliverable, InRec.appendThen_room b _ hroom]
    refine ⟨payloadOutcome_onlyInput m _ s, payloadOutcome_events m _ s, payloadOutcome_scan h _, ?_⟩
    rw [payloadOutcome_record]
    exact ⟨rfl, rfl, r.push_bytes b (lt_of_le_of_ne hl hroom), rfl, rfl⟩

/-- Settles O17: the record with both registers written is appended to. -/
theorem statusByteStartsAMessage : Obligations.StatusByteStartsAMessage := by
  intro s m i b announced h hl hi
  have started (hexec : exec i s = .next (payloadOutcome m
      (((s.ia[m.port].withCommand b).withRemaining announced).thenDeliverable b) s)) :=
    deliverable_outcome h ((s.ia[m.port].withCommand b).withRemaining announced) hl hexec
  rcases hi with ⟨rfl, _, hlen⟩ | ⟨rfl, rfl, rfl⟩
  · have hcase := p1Status_eq m (takePort m s) b
    rw [takePort_ia, takePort_lenTable, hlen] at hcase
    exact started (payloadRow_outcome h rfl _ hcase)
  · exact started (payloadRow_outcome h rfl _ (p1Sysex_eq m (takePort m s)))

/-- Settles O18: the port's own record is appended to. -/
theorem bytesWithoutContextPassThrough : Obligations.BytesWithoutContextPassThrough := by
  intro s m b h hl i hi
  rcases hi with ⟨rfl, rfl⟩ | ⟨rfl, hzero, hrun⟩
  · exact deliverable_outcome h s.ia[m.port] hl
      (payloadRow_outcome h rfl _ (appendDeliverable_eq m (takePort m s) nonCommand))
  · exact deliverable_outcome h s.ia[m.port] hl
      (payloadRow_outcome h (by simp [-Fin.getElem_fin, hzero, hrun]) _ (appendDeliverable_eq m (takePort m s) b))

/-! ### A counted data byte (R138, R139) -/

@[simp] theorem InRec.countDown_lastCommand (r : InRec) : r.countDown.lastCommand = r.lastCommand := by
  unfold InRec.countDown; split <;> rfl

@[simp] theorem InRec.countDown_length (r : InRec) : r.countDown.length = r.length := by
  unfold InRec.countDown; split <;> rfl

@[simp] theorem InRec.countDown_bytes (r : InRec) : r.countDown.bytes = r.bytes := by
  unfold InRec.countDown; split <;> rfl

@[simp] theorem InRec.countDown_bytesRemaining (r : InRec) : r.countDown.bytesRemaining = r.bytesRemaining - 1 := by
  unfold InRec.countDown
  split
  · rename_i h; exact h.symm
  · rfl

/-- The last data byte of a message makes the whole buffer deliverable. -/
theorem InRec.countDown_deliverableLength (r : InRec) :
    r.countDown.deliverableLength = if r.bytesRemaining - 1 = 0 then r.length else r.deliverableLength := by
  unfold InRec.countDown; split <;> rfl

/-- Settles O19: the byte is appended to the port's record, and counted. -/
theorem dataByteCompletesAMessage : Obligations.DataByteCompletesAMessage := by
  intro s m b h hl hr
  have hexec : exec (.p1PayData b) s = .next (payloadOutcome m (s.ia[m.port].thenCounted b) s) :=
    payloadRow_outcome h (decide_eq_true hr) _ (appendCounted_eq m (takePort m s) b)
  refine ⟨_, hexec, ?_⟩
  split
  · rename_i hfull
    rw [InRec.thenCounted, InRec.appendThen_full b _ hfull]
    exact payloadOutcome_overflowed h _
  · rename_i hroom
    rw [InRec.thenCounted, InRec.appendThen_room b _ hroom]
    refine ⟨payloadOutcome_onlyInput m _ s, payloadOutcome_events m _ s, payloadOutcome_scan h _, ?_⟩
    have hlast : s.ia[m.port].bytesRemaining - 1 = 0 ↔ s.ia[m.port].bytesRemaining = 1 := by omega
    have hbytes := s.ia[m.port].push_bytes b (lt_of_le_of_ne hl hroom)
    rw [payloadOutcome_record]
    simp only [InRec.countDown_lastCommand, InRec.countDown_bytesRemaining, InRec.countDown_bytes,
      InRec.countDown_length, InRec.countDown_deliverableLength, InRec.push_lastCommand, InRec.push_bytesRemaining,
      InRec.push_length, InRec.push_deliverableLength, hbytes, hlast, and_self]

/-- The record after both appends of a data byte under running status. -/
def InRec.restored (total : Nat) (b : Byte) (r : InRec) : InRec :=
  (((r.push r.lastCommand).withRemaining (total - 1)).push b).countDown

theorem InRec.restored_bytes (total : Nat) (b : Byte) (r : InRec) (h : r.length < 63) :
    (r.restored total b).bytes = r.bytes ++ [r.lastCommand, b] := by
  have hfirst : (r.push r.lastCommand).bytes = r.bytes ++ [r.lastCommand] := r.push_bytes _ (Nat.lt_succ_of_lt h)
  have hroom : ((r.push r.lastCommand).withRemaining (total - 1)).length < cap := Nat.succ_lt_succ h
  have hsecond := InRec.push_bytes _ b hroom
  have hkept : ((r.push r.lastCommand).withRemaining (total - 1)).bytes = (r.push r.lastCommand).bytes := rfl
  rw [InRec.restored, InRec.countDown_bytes, hsecond, hkept, hfirst, List.append_assoc]
  rfl

/-- What the two appends of R139 leave of a record: they overflow when fewer than two bytes have room, with one report. -/
def InRec.runningStatus (total : Nat) (b : Byte) (r : InRec) : InRec × Bool :=
  r.appendThen r.lastCommand fun u => (u.withRemaining (total - 1)).thenCounted b

theorem InRec.runningStatus_full {r : InRec} (total : Nat) (b : Byte) (hl : r.length ≤ 64) (h : 63 ≤ r.length) :
    ∃ u : InRec, u.lastCommand = r.lastCommand ∧ r.runningStatus total b = (u.resetRecord, true) := by
  by_cases hfull : r.length = 64
  · exact ⟨r, rfl, InRec.appendThen_full _ _ hfull⟩
  · refine ⟨(r.push r.lastCommand).withRemaining (total - 1), rfl, ?_⟩
    have hfull' : (r.push r.lastCommand).length = 64 := by rw [InRec.push_length]; omega
    exact (InRec.appendThen_room _ _ hfull).trans (InRec.appendThen_full _ _ hfull')

theorem InRec.runningStatus_room {r : InRec} (total : Nat) (b : Byte) (h : r.length < 63) :
    r.runningStatus total b = (r.restored total b, false) := by
  have hroom : r.length ≠ 64 := by omega
  have hroom' : (r.push r.lastCommand).length ≠ 64 := by rw [InRec.push_length]; omega
  exact (InRec.appendThen_room _ _ hroom).trans (InRec.appendThen_room _ _ hroom')

/-- Settles O20: the status byte and the data byte are appended to the port's record, and the data byte is counted. -/
theorem runningStatusRestoresTheStatusByte : Obligations.RunningStatusRestoresTheStatusByte := by
  intro s m b total h hl hzero hlen htotal
  have hcase := p1RunningStatus_eq m (takePort m s) b
  rw [takePort_ia, takePort_lenTable, hlen] at hcase
  have hexec : exec (.p1PayRs b) s = .next (payloadOutcome m (s.ia[m.port].runningStatus total b) s) :=
    payloadRow_outcome h (by simp [-Fin.getElem_fin, hzero, hlen, hasRunningStatus, htotal]) _ hcase
  refine ⟨_, hexec, ?_⟩
  split
  · rename_i hfull
    obtain ⟨u, hcommand, hu⟩ := InRec.runningStatus_full total b hl hfull
    rw [hu, ← hcommand]
    exact payloadOutcome_overflowed h u
  · rename_i hroom
    rw [InRec.runningStatus_room total b (Nat.lt_of_not_le hroom)]
    refine ⟨payloadOutcome_onlyInput m _ s, payloadOutcome_events m _ s, payloadOutcome_scan h _, ?_⟩
    rw [payloadOutcome_record]
    have hlast : total - 1 - 1 = 0 ↔ total = 2 := by omega
    refine ⟨InRec.countDown_lastCommand _, ?_, InRec.restored_bytes total b _ (Nat.lt_of_not_le hroom),
      InRec.countDown_length _, ?_⟩
    · exact (InRec.countDown_bytesRemaining _).trans (Nat.sub_sub total 1 1)
    · simp only [InRec.restored, InRec.countDown_deliverableLength, InRec.push_bytesRemaining,
        InRec.withRemaining_bytesRemaining, InRec.push_length, InRec.withRemaining_length,
        InRec.push_deliverableLength, InRec.withRemaining_deliverableLength, hlast]

end Sys2Proof.Machine
end

section
/-! PROOFS. The invariants of the P1 decoder: the scan state (41_p1_decoder.md R133) and the tail bound (R143). A step
runs body bytes of a P1 session, or starts a session, or leaves the records and the scan state of a P1 session alone. -/

namespace Sys2Proof.Machine

variable {s t u : State}

/-! ### What leaves the P1 decoder alone -/

/-- The records, the scan state and the configuration are kept. -/
structure SameP1Decoder (s t : State) : Prop extends SameConfig s t where
  ia : t.ia = s.ia
  scan : t.scan = s.scan

theorem SameP1Decoder.refl (s : State) : SameP1Decoder s s := ⟨.refl s, rfl, rfl⟩

theorem SameP1Decoder.trans (h : SameP1Decoder s t) (h' : SameP1Decoder t u) : SameP1Decoder s u :=
  ⟨h.toSameConfig.trans h'.toSameConfig, h'.ia.trans h.ia, h'.scan.trans h.scan⟩

theorem Aside.sameP1Decoder (h : Aside s t) : SameP1Decoder s t := ⟨h.toSameConfig, h.ia, h.scan⟩

theorem whenSelected_sameP1Decoder {row : String} {cond : Bool} (h : whenSelected row cond u = .next t)
    (hu : SameP1Decoder s u) : SameP1Decoder s t := by
  obtain ⟨_, rfl⟩ := (whenSelected_next _ _ _ _).1 h
  exact hu

theorem p1EmitSeq_sameP1Decoder (s : State) : SameP1Decoder s (p1EmitSeq s) :=
  ⟨⟨rfl, rfl, rfl, rfl, rfl⟩, rfl, rfl⟩

theorem p1Pull_sameP1Decoder (s : State) : SameP1Decoder s (p1Pull s) :=
  foldl_keeps (SameP1Decoder s) p1PullPort _
    (fun _ t _ h => (h.trans (aside_emit _ t).sameP1Decoder).trans (aside_setEnc _ _).sameP1Decoder) s (.refl s)

theorem p1Group_sameP1Decoder (mask : Byte) (s : State) : SameP1Decoder s (p1Group mask s) := by
  have fold (ports : List MaskPort) : ∀ t : State, SameP1Decoder t
      (ports.foldl (fun t i => if mask.getLsbD i.val then p1EmitPayload i t else t) t) := by
    induction ports with
    | nil => exact .refl
    | cons i ports ih =>
      intro t
      refine SameP1Decoder.trans ?_ (ih _)
      dsimp only
      split
      · exact (aside_setEnc _ t).sameP1Decoder
      · exact .refl t
  exact (aside_setEnc _ s).sameP1Decoder.trans (fold maskPorts _)

theorem p1Groups_sameP1Decoder (left : Nat) (s : State) : SameP1Decoder s (p1Groups left s) :=
  p1Groups_keeps (SameP1Decoder s) (fun t h _ => h.trans (aside_setActive _ t).sameP1Decoder)
    (fun t h _ => h.trans (p1Group_sameP1Decoder _ t)) left s (.refl s)

theorem p1Finish_sameP1Decoder (s : State) : SameP1Decoder s (p1Finish s) :=
  ((aside_setEnc _ s).sameP1Decoder.trans (aside_setEnc _ _).sameP1Decoder).trans
    (aside_submit 1 _ (p1EmitEnd (p1EmitEnd s))).sameP1Decoder

theorem p1Encode_sameP1Decoder (s : State) : SameP1Decoder s (p1Encode s) := by
  have pulled := (aside_setEnc EncState.init s).sameP1Decoder.trans (p1Pull_sameP1Decoder _)
  have header : SameP1Decoder s (p1EmitRsvd (p1EmitSeq (p1Pull (setEnc EncState.init s)))) :=
    (pulled.trans (p1EmitSeq_sameP1Decoder _)).trans (aside_setEnc _ _).sameP1Decoder
  have assembled := header.trans (p1Groups_sameP1Decoder p1Offsets _)
  refine SameP1Decoder.trans ?_ (aside_setEnc EncState.init _).sameP1Decoder
  split
  · exact assembled
  · exact assembled.trans (p1Finish_sameP1Decoder _)

theorem encodeOrRefuse_sameP1Decoder (before s : State) (hb : Aside before s) (hv : s.variant = .p1) :
    SameP1Decoder before (encodeOrRefuse before s) := by
  unfold encodeOrRefuse
  split
  · rw [encodePacket, hv]
    exact (hb.sameP1Decoder.trans (p1Encode_sameP1Decoder s)).trans (aside_accept _).sameP1Decoder
  · exact (aside_refuse _ before).sameP1Decoder

theorem execTxKick_sameP1Decoder (hv : s.variant = .p1) (h : execTxKick s = .next t) : SameP1Decoder s t := by
  unfold execTxKick at h
  split at h
  · split at h <;> cases h
    · exact (aside_accept s).sameP1Decoder
    · exact encodeOrRefuse_sameP1Decoder s s (.of_eq rfl) hv
  · cases h; exact (aside_refuse _ s).sameP1Decoder

theorem execTxDone_sameP1Decoder (ok : Bool) (hv : s.variant = .p1) (h : execTxDone ok s = .next t) :
    SameP1Decoder s t := by
  unfold execTxDone at h
  split at h
  · split at h <;> cases h
    · exact encodeOrRefuse_sameP1Decoder s _ (aside_setActive false s) hv
    · exact (aside_accept s).sameP1Decoder
  · cases h; exact (aside_refuse _ s).sameP1Decoder

/-! ### The channels that do not feed the P1 decoder -/

theorem exec_lengthOf_sameP1Decoder {i : Instr} (hi : Context.lengthOf.admits i = true) (h : exec i s = .next t) :
    SameP1Decoder s t := by
  cases i with
  | lenData | lenChan8 | lenChan9 | lenChanA | lenChanB | lenChanC | lenChanD | lenChanE | lenSysex | lenSysF1
  | lenSysF2 | lenSysF3 | lenSysF4 | lenSysF5 | lenSysF6 | lenSysF7 | lenSysF8 | lenSysF9 | lenSysFA | lenSysFB | lenSysFC
  | lenSysFD | lenSysFE | lenFF => cases h; exact (aside_queryLength _ s).sameP1Decoder
  | _ => cases hi

theorem exec_p1Out_sameP1Decoder {pos : P1Pos} {i : Instr} (hi : (Context.p1Out pos).admits i = true)
    (h : exec i s = .next t) : SameP1Decoder s t := by
  cases i with
  | p1outSeq => exact whenSelected_sameP1Decoder h (p1EmitSeq_sameP1Decoder s)
  | p1outRsvd | p1outMask | p1outEnd => exact whenSelected_sameP1Decoder h (aside_setEnc _ s).sameP1Decoder
  | p1outPayload b =>
    simp only [exec, execP1outPayload] at h
    split at h
    · cases h
    · exact whenSelected_sameP1Decoder h (aside_setEnc _ s).sameP1Decoder
  | _ => cases hi

theorem variant_of_fifoPush {q : Port} {span : Nat} {i : Instr} (hi : (Context.fifoPush q span).admits i = true)
    (h : exec i s = .next t) : s.variant = .p2 := by
  cases i with
  | fifoSysex | fifoSysexEnd | fifoStatus | fifoNac =>
    obtain ⟨hin, _⟩ := (whenSelected_next _ _ _ _).1 h
    exact (of_inFifoPush hin).1
  | fifoDataSpan | fifoDataNospan =>
    obtain ⟨hcond, _⟩ := (whenSelected_next _ _ _ _).1 h
    obtain ⟨hin, _⟩ := Bool.and_eq_true_iff.1 hcond
    exact (of_inFifoPush hin).1
  | _ => cases hi

theorem variant_of_p2Out {slot : P2Slot} {i : Instr} (hi : (Context.p2Out slot).admits i = true)
    (h : exec i s = .next t) : s.variant = .p2 := by
  have ofRow {row : String} {cond : Bool} {u : State} (hrow : whenSelected row cond u = .next t)
      (hcond : inP2Out s = false → cond = false) : s.variant = .p2 := by
    obtain ⟨hsel, _⟩ := (whenSelected_next _ _ _ _).1 hrow
    refine variant_of_inP2Out (Bool.not_eq_false _ ▸ fun hout => ?_)
    rw [hcond hout] at hsel
    cases hsel
  cases i with
  | p2outMarker | p2outPort | p2outPad | p2outFinalPad | p2outTrailer =>
    exact ofRow h fun hout => by simp only [hout, Bool.false_and]
  | p2outPrime b =>
    simp only [exec, execP2outPrime] at h
    split at h
    · cases h
    · exact ofRow h fun hout => by simp only [hout, Bool.false_and]
  | p2outFifo b =>
    simp only [exec, execP2outFifo] at h
    split at h
    · cases h
    · exact ofRow h fun hout => by simp only [hout, Bool.false_and]
  | _ => cases hi

/-! ### A session of P2 -/

theorem Act.scan_eq {c : SessionConfig} {W : Prop} (hc : c.variant = .p2) (h : Act c W s t) : t.scan = s.scan := by
  have other {v : Variant} (hv : c.variant = v) (hne : v ≠ .p2) : t.scan = s.scan := absurd (hv.symm.trans hc) hne
  cases h with
  | aside _ h => exact h.scan
  | scan _ hv => exact other hv (by decide)
  | p2Row _ _ h =>
    exact chain_keeps (fun x => x.scan = s.scan) (fun x y hxy hx => by cases hxy <;> exact hx) h.acts rfl
  | input | deliver | fifo | lastOutputPort | seq => rfl

theorem Acts.scan_eq {c : SessionConfig} {W : Prop} (hc : c.variant = .p2) (h : Acts c W s t) : t.scan = s.scan :=
  chain_keeps (fun x => x.scan = s.scan) (fun _ _ hxy hx => (Act.scan_eq hc hxy).trans hx) h rfl

/-! ### Every step -/

theorem decodeToken_singleton {f : Byte → Except DecodeError Instr} {bytes : List Byte} {i : Instr}
    (h : decodeToken f bytes = .ok i) : ∃ b, bytes = [b] := by
  unfold decodeToken at h
  split at h
  · cases h
  · exact ⟨_, rfl⟩
  · cases h

/-- A decoder reads one byte at a time (30_encoding.md R99). -/
theorem rxContext_singleton {c : Context} {bytes : List Byte} {i : Instr} (hctx : rxContext s = some c)
    (h : decode c bytes = .ok i) : ∃ b, bytes = [b] := by
  unfold rxContext at hctx
  repeat' split at hctx
  all_goals cases hctx
  all_goals exact decodeToken_singleton h

/-- What one instruction but RESET does to the P1 decoder, in a session of P1: the bytes of a packet, one byte, or
nothing. -/
theorem exec_p1Decoder {r : Request} {c : Context} {i : Instr} (hv : s.variant = .p1)
    (hi : ∀ cfg, i ≠ .reset cfg) (hctx : contextOf s r.chan = some c) (hdec : decode c r.bytes = .ok i)
    (h : exec i s = .next t) :
    SameP1Decoder s t ∨ (∃ b, t = p1Byte b s) ∨ ∃ pkt, SameP1Decoder (p1Decode pkt (setRxPosted false s)) t := by
  obtain ⟨hrow, _⟩ := decode_rowOf c r.bytes i hdec
  cases hchan : r.chan <;> rw [hchan] at hctx
  case rxByte =>
    obtain ⟨b, hb⟩ := rxContext_singleton hctx hdec
    rw [exec_rxByte_p1 hv hctx (hb ▸ hdec)] at h
    cases h
    exact .inr (.inl ⟨b, rfl⟩)
  all_goals cases hctx
  case lengthOf => exact .inl (exec_lengthOf_sameP1Decoder hrow h)
  case p1Out => exact .inl (exec_p1Out_sameP1Decoder hrow h)
  case push => exact absurd (hv.symm.trans (variant_of_fifoPush hrow h)) (by decide)
  case p2Out => exact absurd (hv.symm.trans (variant_of_p2Out hrow h)) (by decide)
  case host =>
    cases i with
    | reset cfg => exact absurd rfl (hi cfg)
    | txKick => exact .inl (execTxKick_sameP1Decoder hv h)
    | txDone ok => exact .inl (execTxDone_sameP1Decoder ok hv h)
    | rxPacket pkt =>
      simp only [exec, execRxPacket] at h
      split at h
      · split at h <;> cases h
        · refine .inr (.inr ⟨pkt, ?_⟩)
          rw [receive, decodePacket, setRxPosted_variant, hv]
          exact (aside_rearm _).sameP1Decoder.trans (aside_accept _).sameP1Decoder
        · exact .inl (aside_refuse _ s).sameP1Decoder
      · cases h; exact .inl (aside_refuse _ s).sameP1Decoder
    | _ => cases hrow

/-- A property of the P1 decoder holds after every step, if a new session has it, and a body byte and a packet keep it. -/
theorem step_keeps_p1 (P : State → Prop) (hsame : ∀ s t, SameP1Decoder s t → P s → P t)
    (hp2 : ∀ s t, s.variant = .p2 → SameConfig s t → t.scan = s.scan → P s → P t)
    (hreset : ∀ c s, P s → P (startSession c s)) (hbyte : ∀ b s, s.variant = .p1 → P s → P (p1Byte b s))
    (hpacket : ∀ pkt s, s.variant = .p1 → P s → P (p1Decode pkt s)) (h : step s = .next t) (hs : P s) : P t := by
  have haside (x y : State) (hxy : Aside x y) : P x → P y := hsame x y hxy.sameP1Decoder
  rcases (step_next s t).1 h with ⟨_, rfl⟩ | ⟨r, rest, c, i, _, hctx, hdec, hexec⟩
  · exact hs
  · have htake := haside _ _ (aside_takeRequest r rest s) hs
    have hctx' : contextOf (takeRequest r rest s) r.chan = some c := hctx
    generalize takeRequest r rest s = x at hexec htake hctx'
    by_cases hi : ∀ cfg, i ≠ .reset cfg
    · cases hv : x.variant with
      | p2 =>
        have hacts := exec_acts (W := False) i hi False.elim hexec
        exact hp2 x t hv hacts.sameConfig (Acts.scan_eq hv hacts) htake
      | p1 =>
        rcases exec_p1Decoder hv hi hctx' hdec hexec with hkept | ⟨b, rfl⟩ | ⟨pkt, hkept⟩
        · exact hsame x t hkept htake
        · exact hbyte b x hv htake
        · exact hsame _ t hkept (hpacket pkt _ hv (haside _ _ (aside_setRxPosted false x) htake))
    · push Not at hi
      obtain ⟨cfg, rfl⟩ := hi
      rcases execReset_next cfg hexec with rfl | ⟨c, rfl⟩
      · exact haside _ _ (aside_refuse _ _) htake
      · exact haside _ _ (aside_accept _) (hreset c _ htake)

/-! ### The scan state (41_p1_decoder.md R133) -/

theorem scanOk_congr (h : t.scan = s.scan) (hs : ScanOk s) : ScanOk t := by
  rw [ScanOk, h]
  exact hs

theorem p1Byte_scanOk (b : Byte) (s : State) (h : ScanOk s) : ScanOk (p1Byte b s) := by
  by_cases hd : s.scan.inData = true
  · cases hi : payloadPort s with
    | none => rwa [p1Byte, if_pos hd, payloadStep, hi]
    | some i => rw [p1Byte_payload i s b hd hi]; exact scanOk_payload i s b h hd hi
  · obtain ⟨hok, _⟩ := p1Byte_mask 0 s b h (Bool.eq_false_iff.2 hd)
    exact hok

theorem p1Decode_scanOk (pkt : List Byte) (s : State) (h : ScanOk s) : ScanOk (p1Decode pkt s) := by
  unfold p1Decode
  split
  · exact h
  · exact scanOk_init _ rfl

/-- Settles O24: a packet leaves the initial scan state, a byte step keeps it consistent, and nothing else writes it. -/
theorem stepKeepsTheScanState : Obligations.StepKeepsTheScanState := fun _ _ hs h =>
  step_keeps_p1 ScanOk (fun _ _ hsame => scanOk_congr hsame.scan) (fun _ _ _ _ hscan => scanOk_congr hscan)
    (fun _ _ _ => scanOk_init _ rfl) (fun b x _ => p1Byte_scanOk b x) (fun pkt x _ => p1Decode_scanOk pkt x) h hs

/-! ### The tail of a record (41_p1_decoder.md R143) -/

theorem InRec.tailOk_iff (r : InRec) :
    r.tailOk = true ↔ r.deliverableLength ≤ r.length ∧ r.bytesRemaining ≤ 2 ∧
      r.length + r.bytesRemaining ≤ r.deliverableLength + 3 ∧
      (r.bytesRemaining = 0 → r.length = r.deliverableLength) := by
  simp only [InRec.tailOk, Bool.and_eq_true, Bool.or_eq_true, decide_eq_true_eq, bne_iff_ne, beq_iff_eq, and_assoc,
    Classical.or_iff_not_imp_left, not_not]

theorem InRec.fresh_tailOk (buf : Vector Byte cap) : (InRec.fresh buf).tailOk = true := rfl

theorem InRec.resetRecord_tailOk (r : InRec) : r.resetRecord.tailOk = true := rfl

theorem InRec.thenDeliverable_tailOk (b : Byte) (r : InRec) (h : r.bytesRemaining ≤ 2) :
    (r.thenDeliverable b).1.tailOk = true := by
  unfold InRec.thenDeliverable InRec.appendThen
  split
  · exact r.resetRecord_tailOk
  · refine (InRec.tailOk_iff _).2 ⟨le_rfl, h, Nat.add_le_add_left (Nat.le_succ_of_le h) _, fun _ => rfl⟩

/-- A counted byte keeps the tail bound while data bytes are expected. -/
theorem InRec.thenCounted_tailOk (b : Byte) (r : InRec) (hd : r.deliverableLength ≤ r.length)
    (hpos : 0 < r.bytesRemaining) (hle : r.bytesRemaining ≤ 2)
    (hsum : r.length + r.bytesRemaining ≤ r.deliverableLength + 3) : (r.thenCounted b).1.tailOk = true := by
  unfold InRec.thenCounted InRec.appendThen
  split
  · exact r.resetRecord_tailOk
  · rw [InRec.tailOk_iff, InRec.countDown_deliverableLength, InRec.countDown_length, InRec.countDown_bytesRemaining,
      InRec.push_bytesRemaining, InRec.push_length, InRec.push_deliverableLength]
    split <;> omega

/-- Under a legal table a status byte announces at most two data bytes (40_length_table.md R127). -/
theorem dataBytesOf_le (t : LenTable) (h : t.wf = true) (b : Byte) : dataBytesOf (lengthOf t b) ≤ 2 := by
  cases hlen : lengthOf t b with
  | fixed n =>
    have := lengthOf_range t h b n hlen
    simp only [dataBytesOf]
    omega
  | variableLen | notACommand => exact Nat.zero_le _

theorem dataBytesOf_pos {c : LenClass} (h : hasRunningStatus c = true) : 0 < dataBytesOf c := by
  cases c with
  | fixed n => exact Nat.sub_pos_of_lt (of_decide_eq_true h)
  | variableLen | notACommand => cases h

/-- Every case of AppendAndClassify keeps the tail bound (R135 to R141). -/
theorem InRec.afterByte_tailOk (t : LenTable) (h : t.wf = true) (b : Byte) (r : InRec) (hr : r.tailOk = true) :
    (r.afterByte t b).1.tailOk = true := by
  obtain ⟨hd, hle, hsum, hzero⟩ := (InRec.tailOk_iff r).1 hr
  unfold InRec.afterByte
  split
  · split
    · exact InRec.thenDeliverable_tailOk b _ (dataBytesOf_le t h b)
    · exact InRec.thenDeliverable_tailOk sysexBegin _ (Nat.zero_le 2)
    · exact InRec.thenDeliverable_tailOk b r hle
  · split
    · rename_i hpos
      exact InRec.thenCounted_tailOk b r hd hpos hle hsum
    · rename_i hpos
      split
      · rename_i hrun
        have hle' := dataBytesOf_le t h r.lastCommand
        have hdone := hzero (Nat.eq_zero_of_not_pos hpos)
        unfold InRec.appendThen
        split
        · exact r.resetRecord_tailOk
        · refine InRec.thenCounted_tailOk b _ (Nat.le_succ_of_le hd) (dataBytesOf_pos hrun) hle' ?_
          simp only [InRec.withRemaining_length, InRec.withRemaining_bytesRemaining,
            InRec.withRemaining_deliverableLength, InRec.push_length, InRec.push_deliverableLength]
          omega
      · exact InRec.thenDeliverable_tailOk b r hle

theorem InRec.delivered_tailOk (r : InRec) (hr : r.tailOk = true) : r.delivered.tailOk = true := by
  obtain ⟨hd, hle, hsum, hzero⟩ := (InRec.tailOk_iff r).1 hr
  unfold InRec.delivered
  split
  · rw [InRec.tailOk_iff, InRec.shiftOut_deliverableLength, InRec.shiftOut_length, InRec.shiftOut_bytesRemaining]
    omega
  · exact hr

/-! ### Every record -/

theorem writePort_records (P : InRec → Prop) (i : MaskPort) (x : InRec × Bool) (s : State)
    (hs : ∀ p : Port, P s.ia[p]) (hx : P x.1) (p : Port) : P (writePort i x s).ia[p] := by
  rw [writePort_ia]
  exact forall_modIn (fun _ => P) i.port _ s hs hx p

/-- A body byte runs AppendAndClassify on at most one record. -/
theorem p1Byte_records (P : InRec → Prop) (b : Byte) (s : State)
    (hP : ∀ r, P r → P (r.afterByte s.lenTable b).1) (hs : ∀ p : Port, P s.ia[p]) (p : Port) :
    P (p1Byte b s).ia[p] := by
  by_cases hd : s.scan.inData = true
  · cases hi : payloadPort s with
    | none =>
      rw [p1Byte, if_pos hd, payloadStep, hi]
      exact hs p
    | some i =>
      rw [p1Byte_payload i s b hd hi, leaveData_ia, takeByte]
      split
      · exact hs p
      · exact writePort_records P i _ (takePort i s) hs (hP _ (hs i.port)) p
  · rw [p1Byte, if_neg hd]
    split <;> exact hs p

/-- The tail bound for every record, under a legal length table. -/
structure TailsOk (s : State) : Prop where
  table : s.lenTable.wf = true
  tail : ∀ p : Port, s.ia[p].tailOk = true

theorem p1Byte_sameConfig (b : Byte) (s : State) (hv : s.variant = .p1) : SameConfig s (p1Byte b s) :=
  (p1Byte_acts (c := configOf s) (W := False) hv b s).sameConfig

theorem p1Byte_tailsOk (b : Byte) (s : State) (hv : s.variant = .p1) (h : TailsOk s) : TailsOk (p1Byte b s) where
  table := (p1Byte_sameConfig b s hv).lenTable.symm ▸ h.table
  tail := p1Byte_records (fun r => r.tailOk = true) b s (InRec.afterByte_tailOk s.lenTable h.table b) h.tail

theorem scanBytes_p1_tailsOk (body : List Byte) (s : State) (hv : s.variant = .p1) (h : TailsOk s) :
    TailsOk (scanBytes p1Byte body s) := by
  refine (scanBytes_keeps (fun x => x.variant = .p1 ∧ TailsOk x) p1Byte ?_ body s ⟨hv, h⟩).2
  rintro b x ⟨hx, hok⟩
  obtain ⟨htable, htail⟩ := p1Byte_tailsOk b x hx hok
  exact ⟨(p1Byte_sameConfig b x hx).variant.trans hx, htable, htail⟩

theorem deliverAll_tail (s : State) (h : TailsOk s) (p : Port) : (deliverAll s).ia[p].tailOk = true := by
  rw [(deliverAll_port s p).1]
  exact InRec.delivered_tailOk _ (h.tail p)

theorem p1Decode_tailsOk (pkt : List Byte) (s : State) (hv : s.variant = .p1) (h : TailsOk s) :
    TailsOk (p1Decode pkt s) := by
  have hcfg := (p1Decode_acts (c := configOf s) (W := False) hv pkt s).sameConfig
  refine ⟨hcfg.lenTable.symm ▸ h.table, ?_⟩
  unfold p1Decode
  split
  · exact h.tail
  · simp only [setCursor_ia, setScan_ia]
    exact deliverAll_tail _ (scanBytes_p1_tailsOk _ (setCursor 2 (setScan ScanState.init s)) hv ⟨h.table, h.tail⟩)

theorem P1TailOk.tailsOk (h : P1TailOk s) (hv : s.variant = .p1) : TailsOk s := by
  obtain ⟨htable, htail⟩ := h
  exact ⟨htable, htail hv⟩

theorem TailsOk.p1TailOk (h : TailsOk s) : P1TailOk s := ⟨h.table, fun _ => h.tail⟩

theorem p1TailOk_step (hs : P1TailOk s) (h : step s = .next t) : P1TailOk t := by
  refine step_keeps_p1 P1TailOk ?_ ?_ ?_ ?_ ?_ h hs
  · intro x y hsame hx
    rwa [P1TailOk, hsame.lenTable, hsame.variant, hsame.ia]
  · intro x y hv hcfg _ hx
    obtain ⟨htable, _⟩ := hx
    exact ⟨hcfg.lenTable.symm ▸ htable, fun hv' => absurd ((hcfg.variant.trans hv).symm.trans hv') (by decide)⟩
  · intro c x hx
    obtain ⟨htable, _⟩ := hx
    exact ⟨htable, fun _ p => by rw [startSession_ia]; exact InRec.fresh_tailOk _⟩
  · exact fun b x hv hx => (p1Byte_tailsOk b x hv (hx.tailsOk hv)).p1TailOk
  · exact fun pkt x hv hx => (p1Decode_tailsOk pkt x hv (hx.tailsOk hv)).p1TailOk

theorem InRec.delivered_deliverableLength (r : InRec) : r.delivered.deliverableLength = 0 := by
  unfold InRec.delivered
  split
  · exact r.shiftOut_deliverableLength _
  · rename_i h; exact Nat.eq_zero_of_not_pos h

theorem p1Decode_undelivered (pkt : List Byte) (s : State) (hl : 2 ≤ pkt.length) (p : Port) :
    (p1Decode pkt s).ia[p].deliverableLength = 0 := by
  rw [p1Decode, if_neg (Nat.not_lt.2 hl), setCursor_ia, setScan_ia, (deliverAll_port _ p).1]
  exact InRec.delivered_deliverableLength _

theorem receive_p1 (pkt : List Byte) (hv : s.variant = .p1) :
    receive pkt s = rearm (p1Decode pkt (setRxPosted false s)) := by
  simp only [receive, decodePacket, setRxPosted_variant, hv]

/-- Settles O23: every case of a payload byte and every delivery keeps the tail bound, and a delivery leaves nothing
deliverable, so that the bound is one on the whole record. -/
theorem stepKeepsTheP1Tail : Obligations.StepKeepsTheP1Tail := by
  refine ⟨fun s t hs h => p1TailOk_step hs h, fun s t pkt p hs ho hv hr hl h => ?_⟩
  have hkept := p1Decode_tailsOk pkt (setRxPosted false s) hv (P1TailOk.tailsOk hs hv)
  have hia : t.ia = (p1Decode pkt (setRxPosted false s)).ia := by
    rw [eq_of_exec_rxPacket ho hr h, receive_p1 pkt hv, accept_ia, rearm, emit_ia, setRxPosted_ia]
  rw [hia]
  have hnone := p1Decode_undelivered pkt (setRxPosted false s) hl p
  obtain ⟨_, _, hsum, hzero⟩ := (InRec.tailOk_iff _).1 (hkept.tail p)
  refine ⟨?_, hnone⟩
  omega

end Sys2Proof.Machine
end

section
/-! PROOFS. A P1 packet is its byte steps, then the deliveries, then the rearm (41_p1_decoder.md R130, R142, 20_memory.md
R62, 46_control.md R231, R241). -/

namespace Sys2Proof.Machine

variable {s t u : State}

/-! ### The frame of a P1 packet -/

/-- `t` differs from `s` only in what the P1 decoder writes: the records, the scan state, the cursor and the events. -/
def OnlyP1Decoder (s t : State) : Prop :=
  t = { s with ia := t.ia, scan := t.scan, cursor := t.cursor, events := t.events }

theorem OnlyP1Decoder.refl (s : State) : OnlyP1Decoder s s := rfl

theorem OnlyP1Decoder.trans (h : OnlyP1Decoder s t) (h' : OnlyP1Decoder t u) : OnlyP1Decoder s u := by
  rw [OnlyP1Decoder] at *
  rw [h', h]

theorem OnlyInput.onlyP1Decoder {p : Port} (h : OnlyInput p s t) : OnlyP1Decoder s t := by
  obtain ⟨heq, _⟩ := h
  rw [OnlyP1Decoder, heq]

theorem p1Byte_onlyP1Decoder (b : Byte) (s : State) : OnlyP1Decoder s (p1Byte b s) := by
  by_cases hd : s.scan.inData = true
  · cases hi : payloadPort s with
    | none => rw [p1Byte, if_pos hd, payloadStep, hi]; exact .refl s
    | some i =>
      rw [p1Byte_payload i s b hd hi]
      exact ((takeByte_onlyInput i b s).trans (leaveData_onlyInput _ _)).onlyP1Decoder
  · rw [p1Byte, if_neg hd]
    split <;> exact rfl

theorem scanBytes_onlyP1Decoder (body : List Byte) (s : State) : OnlyP1Decoder s (scanBytes p1Byte body s) :=
  scanBytes_keeps (OnlyP1Decoder s) p1Byte
    (fun b x h => (h.trans (p1Byte_onlyP1Decoder b x)).trans rfl) body s (.refl s)

theorem deliverAll_onlyP1Decoder (s : State) : OnlyP1Decoder s (deliverAll s) := by
  refine deliverAll_keeps (OnlyP1Decoder s) (fun p x h => h.trans ?_) s (.refl s)
  rcases deliverPort_eq p x with ⟨_, heq⟩ | ⟨_, heq⟩ <;> rw [heq] <;> exact rfl

/-! ### The reports of the byte steps -/

/-- The events added from `s` to `t` are reports of RxOverflow (41_p1_decoder.md R141). -/
def OnlyReports (s t : State) : Prop :=
  ∃ reports, t.events = s.events ++ reports ∧ ∀ e ∈ reports, ∃ p, e = .report 1 p

theorem OnlyReports.of_eq (h : t.events = s.events) : OnlyReports s t := ⟨[], by simp [h], by simp⟩

theorem OnlyReports.trans (h : OnlyReports s t) (h' : OnlyReports t u) : OnlyReports s u := by
  obtain ⟨es, heq, hes⟩ := h
  obtain ⟨es', heq', hes'⟩ := h'
  refine ⟨es ++ es', by rw [heq', heq, List.append_assoc], fun e he => ?_⟩
  rcases List.mem_append.1 he with he | he
  · exact hes e he
  · exact hes' e he

theorem writePort_onlyReports (i : MaskPort) (x : InRec × Bool) (s : State) : OnlyReports s (writePort i x s) := by
  unfold writePort
  split
  · exact ⟨[.report 1 (portByte i.port)], rfl, fun e he => ⟨_, List.mem_singleton.1 he⟩⟩
  · exact .of_eq rfl

theorem p1Byte_onlyReports (b : Byte) (s : State) : OnlyReports s (p1Byte b s) := by
  by_cases hd : s.scan.inData = true
  · cases hi : payloadPort s with
    | none => rw [p1Byte, if_pos hd, payloadStep, hi]; exact .of_eq rfl
    | some i =>
      rw [p1Byte_payload i s b hd hi]
      refine OnlyReports.trans ?_ (.of_eq (leaveData_events _))
      unfold takeByte
      split
      · exact .of_eq rfl
      · exact (OnlyReports.of_eq (t := takePort i s) rfl).trans (writePort_onlyReports i _ _)
  · rw [p1Byte, if_neg hd]
    split <;> exact .of_eq rfl

theorem scanBytes_onlyReports (body : List Byte) (s : State) : OnlyReports s (scanBytes p1Byte body s) :=
  scanBytes_keeps (OnlyReports s) p1Byte
    (fun b x h => (h.trans (p1Byte_onlyReports b x)).trans (.of_eq rfl)) body s (.of_eq rfl)

/-! ### The deliveries -/

/-- The deliveries that the records of `s` have ready, for the ports of a list. -/
def deliveries (ports : List Port) (s : State) : List Event :=
  ports.flatMap (fun p => s.ia[p].ready.map (Event.deliver p))

theorem deliverPort_events (p : Port) (s : State) :
    (deliverPort p s).events = s.events ++ s.ia[p].ready.map (Event.deliver p) := by
  unfold deliverPort InRec.ready
  split
  · rfl
  · exact (List.append_nil _).symm

/-- Each port of the list is delivered to once, in the order of the list. -/
theorem deliverPorts_events (ports : List Port) (hnd : ports.Nodup) (s : State) :
    (ports.foldl (fun t p => deliverPort p t) s).events = s.events ++ deliveries ports s := by
  induction ports generalizing s with
  | nil => exact (List.append_nil _).symm
  | cons p ports ih =>
    obtain ⟨hp, hports⟩ := List.nodup_cons.1 hnd
    have hothers : deliveries ports (deliverPort p s) = deliveries ports s := by
      refine List.flatMap_congr fun p' hp' => ?_
      rw [(deliverPort_ne s p p' (by rintro rfl; exact hp hp')).1]
    rw [List.foldl_cons, ih hports, hothers, deliverPort_events, List.append_assoc]
    rfl

/-- What the ports have ready is a delivery for each port with deliverable bytes. -/
theorem deliveries_eq_map (ports : List Port) (s : State) :
    deliveries ports s =
      (ports.filter (fun p => decide (0 < s.ia[p].deliverableLength))).map
        (fun p => Event.deliver p s.ia[p].deliverable) := by
  induction ports with
  | nil => rfl
  | cons p ports ih =>
    rw [deliveries, List.flatMap_cons, ← deliveries, ih, InRec.ready, List.filter_cons]
    by_cases h : 0 < s.ia[p].deliverableLength
    · rw [if_pos h, if_pos (decide_eq_true h)]
      rfl
    · rw [if_neg h, if_neg (by simpa only [decide_eq_true_eq] using h)]
      rfl

theorem deliverAll_events (s : State) :
    (deliverAll s).events = s.events ++ (readyMessages s).map (fun m => .deliver m.1 m.2) := by
  have hnd : allPorts.Nodup := by decide
  rw [deliverAll, deliverPorts_events allPorts hnd, deliveries_eq_map, readyMessages, List.map_map]
  rfl

theorem readyMessages_ascending (s : State) : (readyMessages s).Pairwise (fun a b => a.1 < b.1) := by
  have hports : allPorts.Pairwise (fun p q => p < q) := by decide
  exact List.pairwise_map.2 (hports.filter _)

theorem InRec.deliverable_ne_nil (r : InRec) (h : 0 < r.deliverableLength) : r.deliverable ≠ [] := by
  have hlen : r.deliverable.length = min r.deliverableLength cap := by simp [InRec.deliverable]
  intro hnil
  rw [hnil, List.length_nil] at hlen
  simp only [cap] at hlen
  omega

theorem readyMessages_ne_nil (s : State) (m : Port × List Byte) (h : m ∈ readyMessages s) : m.2 ≠ [] := by
  simp only [readyMessages, List.mem_map, List.mem_filter, decide_eq_true_eq] at h
  obtain ⟨p, ⟨_, hp⟩, rfl⟩ := h
  exact InRec.deliverable_ne_nil _ hp

/-! ### What a delivery leaves of a record (20_memory.md R62) -/

@[simp] theorem InRec.delivered_lastCommand (r : InRec) : r.delivered.lastCommand = r.lastCommand := by
  unfold InRec.delivered
  split
  · exact r.shiftOut_lastCommand _
  · rfl

@[simp] theorem InRec.delivered_bytesRemaining (r : InRec) : r.delivered.bytesRemaining = r.bytesRemaining := by
  unfold InRec.delivered
  split
  · exact r.shiftOut_bytesRemaining _
  · rfl

theorem InRec.delivered_length (r : InRec) : r.delivered.length = r.length - r.deliverableLength := by
  unfold InRec.delivered
  split
  · exact r.shiftOut_length _
  · omega

theorem InRec.delivered_bytes (r : InRec) (h : r.ok = true) :
    r.delivered.bytes = r.bytes.drop r.deliverableLength := by
  obtain ⟨hd, hl, _⟩ := (InRec.ok_iff r).1 h
  unfold InRec.delivered
  split
  · exact r.shiftOut_bytes _ hl hd
  · rename_i hnone
    rw [Nat.eq_zero_of_not_pos hnone, List.drop_zero]

theorem scanBytes_p1_inputOk (body : List Byte) (hv : s.variant = .p1) (h : InputOk s) :
    InputOk (scanBytes p1Byte body s) :=
  (scanBytes_acts (c := configOf s) p1Byte (p1Byte_acts hv) body s).keeps InputOk (fun _ _ => Act.inputOk) h

/-! ### The packet -/

/-- The state in which the byte steps of a P1 packet start (41_p1_decoder.md R131). -/
def p1PacketStart (s : State) : State := { s with rxPosted := false, scan := ScanState.init, cursor := 2 }

theorem receive_p1_short (pkt : List Byte) (hv : s.variant = .p1) (hr : s.rxPosted = true) (hl : pkt.length < 2) :
    accept (receive pkt s) = { s with events := s.events ++ [.rxRearm], verdict := .accepted } := by
  rw [receive_p1 pkt hv, p1Decode, if_pos hl]
  simp only [accept, rearm, emit, setRxPosted, hr]

theorem receive_p1_long (pkt : List Byte) (hv : s.variant = .p1) (hl : ¬ pkt.length < 2) :
    receive pkt s =
      rearm (setCursor 0 (setScan ScanState.init (deliverAll (scanBytes p1Byte (pkt.drop 2) (p1PacketStart s))))) := by
  rw [receive_p1 pkt hv, p1Decode, if_neg hl]
  rfl

/-- A packet ends with the scan state and the cursor put back, and a receive posted again. -/
theorem p1PacketEnd_eq (hr : s.rxPosted = true) (h : OnlyP1Decoder (p1PacketStart s) t) :
    accept (rearm (setCursor 0 (setScan ScanState.init t))) =
      { s with
        ia := t.ia, scan := ScanState.init, cursor := 0, events := t.events ++ [.rxRearm], verdict := .accepted } := by
  rw [OnlyP1Decoder] at h
  rw [h]
  simp only [accept, rearm, emit, setRxPosted, setCursor, setScan, p1PacketStart, hr]

/-- Settles O21: the byte steps only report, and the delivery phase takes from each record what it has ready. -/
theorem p1ReceiveDeliversInPortOrder : Obligations.P1ReceiveDeliversInPortOrder := by
  intro s pkt ho hv hr
  split
  · rename_i hl
    rw [exec_rxPacket pkt ho hr, receive_p1_short pkt hv hr hl]
  · rename_i hl
    obtain ⟨reports, hreports, honly⟩ := scanBytes_onlyReports (pkt.drop 2) (p1PacketStart s)
    have hok := scanBytes_p1_inputOk (s := p1PacketStart s) (pkt.drop 2) hv
    have hframe := (scanBytes_onlyP1Decoder (pkt.drop 2) (p1PacketStart s)).trans (deliverAll_onlyP1Decoder _)
    have hu := scanBytes_eq_foldl p1Byte (pkt.drop 2) (p1PacketStart s)
    have hexec := exec_rxPacket pkt ho hr
    rw [receive_p1_long pkt hv hl, p1PacketEnd_eq hr hframe] at hexec
    generalize scanBytes p1Byte (pkt.drop 2) (p1PacketStart s) = u at *
    have hevents := deliverAll_events u
    have hia := fun p => (deliverAll_port u p).1
    generalize deliverAll u = w at *
    refine ⟨_, u, reports, hexec, hu, hreports, honly, ?_, readyMessages_ascending u, readyMessages_ne_nil u, ?_, rfl⟩
    · exact congrArg (fun es => es ++ [Event.rxRearm]) hevents
    · intro p
      dsimp only
      rw [hia p]
      exact ⟨InRec.delivered_deliverableLength _, InRec.delivered_lastCommand _, InRec.delivered_bytesRemaining _,
        InRec.delivered_length _, fun hin => InRec.delivered_bytes _ (hok hin p)⟩

end Sys2Proof.Machine
end

section
/-! PROOFS. The P1 encoder (42_p1_encoder.md R150 to R158). A packet body is a function of the pulled bytes (`groupsFrom`):
the encoder emits it, and the grammar of 30_encoding.md R82 reads every port's bytes back from it. -/

namespace Sys2Proof.Machine

variable {s : State} {m : MaskPort} {d : Vector (List Byte) maxPortSlots}

/-! ### The bits of a mask -/

/-- The ports a mask byte names, ascending (30_encoding.md R85). -/
def maskBits (b : Byte) : List MaskPort := maskPorts.filter (fun i => b.getLsbD i.val)

theorem maskBits_length_le (b : Byte) : (maskBits b).length ≤ 8 := List.length_filter_le _ maskPorts

/-- The lowest bit of a mask is the head of its ports. -/
theorem head?_maskBits (b : Byte) : (maskBits b).head? = lowbit b 0 := by
  simp [maskBits, lowbit, List.head?_filter]

theorem maskBits_eq_nil_iff (b : Byte) : maskBits b = [] ↔ b = 0x00 := by
  rw [← List.head?_eq_none_iff, head?_maskBits, lowbit_zero_none]

/-- Clearing the lowest bit leaves the other ports. -/
theorem maskBits_clearBit (b : Byte) (i : MaskPort) : maskBits (clearBit b i.val) = (maskBits b).erase i := by
  have hnd : (maskBits b).Nodup := by
    rw [maskBits, maskPorts_eq]
    exact (List.nodup_finRange _).filter _
  rw [hnd.erase_eq_filter]
  simp only [maskBits, List.filter_filter, clearBit_getLsbD]
  exact List.filter_congr fun k _ => by by_cases h : k = i <;> simp [h]

theorem of_maskBits_cons {b : Byte} {i : MaskPort} {ports : List MaskPort} (h : maskBits b = i :: ports) :
    lowbit b 0 = some i ∧ maskBits (clearBit b i.val) = ports := by
  constructor
  · rw [← head?_maskBits, h, List.head?_cons]
  · rw [maskBits_clearBit, h, List.erase_cons_head]

/-- A port is among a mask's ports once, where its bit is set. -/
theorem filter_maskBits (b : Byte) (m : MaskPort) :
    (maskBits b).filter (fun i => decide (i = m)) = if b.getLsbD m.val then [m] else [] := by
  have hone : maskPorts.filter (fun i => decide (i = m)) = [m] := by revert m; decide
  rw [maskBits, List.filter_comm, hone, List.filter_singleton, cond_eq_ite]

/-! ### The groups of a body (42_p1_encoder.md R153) -/

/-- `M_j`: the ports with a byte at offset `j` of the pulled bytes `d`. -/
def offsetMask (d : Vector (List Byte) maxPortSlots) (j : Nat) : Byte :=
  maskOf (fun i => decide (j < d[i.port].length))

/-- Group `j`: its mask, then one byte for each port of it. -/
def groupAt (d : Vector (List Byte) maxPortSlots) (j : Nat) : List Byte :=
  offsetMask d j :: (maskBits (offsetMask d j)).map (fun i => d[i.port].getD j 0)

/-- The groups from offset `j` on, at most `left` of them, up to the first empty mask (R154). -/
def groupsFrom (d : Vector (List Byte) maxPortSlots) : Nat → Nat → List Byte
  | 0, _ => []
  | left + 1, j => if offsetMask d j = 0x00 then [] else groupAt d j ++ groupsFrom d left (j + 1)

theorem groupMask_eq (e : EncState) : groupMask e = offsetMask e.pulled e.j := rfl

theorem offsetMask_getLsbD (d : Vector (List Byte) maxPortSlots) (j : Nat) (m : MaskPort) :
    (offsetMask d j).getLsbD m.val = decide (j < d[m.port].length) := maskOf_getLsbD _ m

theorem offsetMask_eq_zero_iff (d : Vector (List Byte) maxPortSlots) (j : Nat) :
    offsetMask d j = 0x00 ↔ ∀ m : MaskPort, d[m.port].length ≤ j := by
  simp only [eq_zero_iff_getLsbD, offsetMask_getLsbD, decide_eq_false_iff_not, Nat.not_lt]

/-- A mask byte is the mask of offset `j` when its bits are. -/
theorem eq_offsetMask {b : Byte} {j : Nat} (h : ∀ m : MaskPort, b.getLsbD m.val = decide (j < d[m.port].length)) :
    b = offsetMask d j := by
  refine BitVec.eq_of_getLsbD_eq fun k hk => ?_
  rw [h ⟨k, hk⟩, offsetMask_getLsbD d j ⟨k, hk⟩]

theorem groupAt_length (d : Vector (List Byte) maxPortSlots) (j : Nat) :
    (groupAt d j).length = (maskBits (offsetMask d j)).length + 1 := by
  simp [groupAt]

/-- A body of `left` groups has at most nine bytes for each. -/
theorem groupsFrom_length_le (d : Vector (List Byte) maxPortSlots) (left j : Nat) :
    (groupsFrom d left j).length ≤ 9 * left := by
  induction left generalizing j with
  | zero => exact Nat.le_refl _
  | succ left ih =>
    rw [groupsFrom]
    split
    · exact Nat.zero_le _
    · have hbits := maskBits_length_le (offsetMask d j)
      have hrest := ih (j + 1)
      rw [List.length_append, groupAt_length]
      omega

/-- A body with a group has the mask and a byte at least. -/
theorem two_le_groupsFrom_length {left j : Nat} (h : offsetMask d j ≠ 0x00) :
    2 ≤ (groupsFrom d (left + 1) j).length := by
  have hpos : 0 < (maskBits (offsetMask d j)).length :=
    List.length_pos_iff.2 fun hnil => h ((maskBits_eq_nil_iff _).1 hnil)
  rw [groupsFrom, if_neg h, List.length_append, groupAt_length]
  omega

/-! ### The payload a reader finds in a body (30_encoding.md R82) -/

/-- The bytes that follow a mask are read as one for each of its ports. -/
theorem p1Payloads_ports (b : Byte) (f : MaskPort → Byte) (rest : List Byte) :
    p1Payloads b ((maskBits b).map f ++ rest) = (maskBits b).map (fun i => (i, f i)) ++ p1Payloads 0x00 rest := by
  generalize hports : maskBits b = ports
  induction ports generalizing b with
  | nil => rw [(maskBits_eq_nil_iff b).1 hports]; rfl
  | cons i ports ih =>
    obtain ⟨hlow, hrest⟩ := of_maskBits_cons hports
    simp only [List.map_cons, List.cons_append, p1Payloads, hlow, ih _ hrest]

theorem p1Payloads_groupAt (d : Vector (List Byte) maxPortSlots) (j : Nat) (rest : List Byte) :
    p1Payloads 0x00 (groupAt d j ++ rest) =
      (maskBits (offsetMask d j)).map (fun i => (i, d[i.port].getD j 0)) ++ p1Payloads 0x00 rest := by
  have hmask : lowbit 0x00 0 = none := (lowbit_zero_none _).2 rfl
  rw [← p1Payloads_ports, groupAt, List.cons_append, p1Payloads, hmask]

theorem bytesFor_append (l l' : List (MaskPort × Byte)) : bytesFor m (l ++ l') = bytesFor m l ++ bytesFor m l' := by
  simp [bytesFor]

/-- A group gives a port its byte at offset `j`, if it has one. -/
theorem bytesFor_group (d : Vector (List Byte) maxPortSlots) (j : Nat) (m : MaskPort) :
    bytesFor m ((maskBits (offsetMask d j)).map (fun i => (i, d[i.port].getD j 0))) =
      (d[m.port].drop j).take 1 := by
  have hfilter : bytesFor m ((maskBits (offsetMask d j)).map (fun i => (i, d[i.port].getD j 0))) =
      ((maskBits (offsetMask d j)).filter (fun i => decide (i = m))).map (fun i => d[i.port].getD j 0) := by
    rw [bytesFor, List.filter_map, List.map_map]
    rfl
  rw [hfilter, filter_maskBits, offsetMask_getLsbD]
  by_cases hj : j < d[m.port].length
  · rw [if_pos (decide_eq_true hj), List.drop_eq_getElem_cons hj, List.take_succ_cons, List.take_zero,
      List.map_singleton, List.getD_eq_getElem _ _ hj]
  · rw [if_neg (by simpa using hj), List.drop_eq_nil_of_le (Nat.not_lt.1 hj), List.take_nil, List.map_nil]

/-- The groups from offset `j` on carry, for each port, its bytes from offset `j` on. -/
theorem bytesFor_groupsFrom (d : Vector (List Byte) maxPortSlots) (left j : Nat) (m : MaskPort) :
    bytesFor m (p1Payloads 0x00 (groupsFrom d left j ++ [0x00, 0x00])) = (d[m.port].drop j).take left := by
  induction left generalizing j with
  | zero => rfl
  | succ left ih =>
    rw [groupsFrom]
    split
    · rename_i hmask
      rw [List.drop_eq_nil_of_le ((offsetMask_eq_zero_iff d j).1 hmask m)]
      rfl
    · rw [List.append_assoc, p1Payloads_groupAt, bytesFor_append, bytesFor_group, ih, Nat.add_comm left 1,
        List.take_add, List.drop_drop]

theorem payloadFor_groupsFrom (b : Byte) (m : MaskPort) (hl : d[m.port].length ≤ 3) :
    payloadFor m ([b, 0x00] ++ groupsFrom d 3 0 ++ [0x00, 0x00]) = d[m.port] := by
  have hread := bytesFor_groupsFrom d 3 0 m
  rw [List.drop_zero, List.take_of_length_le hl] at hread
  exact hread

/-! ### The encoder emits the groups -/

/-- The payload bytes of the ports still owed one: they are appended in order, and then the offset advances. -/
theorem foldl_p1EmitPayload (ports : List MaskPort) (hne : ports ≠ []) (t : State)
    (h : maskBits t.enc.pending = ports) :
    ports.foldl (fun t i => p1EmitPayload i t) t =
      setEnc { t.enc with
        out := t.enc.out ++ ports.map (fun i => t.enc.pulled[i.port].getD t.enc.j 0)
        pending := 0x00
        j := t.enc.j + 1 } t := by
  induction ports generalizing t with
  | nil => exact absurd rfl hne
  | cons i ports ih =>
    obtain ⟨_, hrest⟩ := of_maskBits_cons h
    rw [List.foldl_cons]
    by_cases hlast : ports = []
    · have hzero : clearBit t.enc.pending i.val = 0x00 := (maskBits_eq_nil_iff _).1 (hrest.trans hlast)
      simp [hlast, p1EmitPayload, payloadByte, hzero]
    · have hmore : clearBit t.enc.pending i.val ≠ 0x00 := fun hz => hlast (hrest ▸ (maskBits_eq_nil_iff _).2 hz)
      have hemit : p1EmitPayload i t =
          setEnc { t.enc with
            out := t.enc.out ++ [payloadByte i t.enc], pending := clearBit t.enc.pending i.val } t := by
        rw [p1EmitPayload, if_neg hmore]
      rw [hemit, ih hlast _ hrest]
      simp [payloadByte, setEnc]

/-- Everything a group of the current offset does. -/
theorem p1Group_eq (s : State) (hmask : groupMask s.enc ≠ 0x00) :
    p1Group (groupMask s.enc) s =
      setEnc { s.enc with
        out := s.enc.out ++ groupAt s.enc.pulled s.enc.j
        pending := 0x00
        j := s.enc.j + 1 } s := by
  have hne : maskBits (groupMask s.enc) ≠ [] := fun hnil => hmask ((maskBits_eq_nil_iff _).1 hnil)
  have hfold := foldl_p1EmitPayload _ hne (p1EmitMask (groupMask s.enc) s) rfl
  rw [p1Group, ← List.foldl_filter]
  refine hfold.trans ?_
  simp [p1EmitMask, groupAt, groupMask_eq, setEnc]

/-- Everything the group loop does, but for where it leaves the offset; `active` is clear as the encoder runs (R154). -/
theorem p1Groups_eq (left : Nat) (s : State) (hp : s.enc.pending = 0x00) (ha : s.active = false) :
    ∃ j, p1Groups left s =
      setEnc { s.enc with out := s.enc.out ++ groupsFrom s.enc.pulled left s.enc.j, j := j } s := by
  induction left generalizing s with
  | zero => exact ⟨s.enc.j, by simp [p1Groups, groupsFrom, setEnc]⟩
  | succ left ih =>
    rw [p1Groups, groupsFrom, ← groupMask_eq]
    split
    · exact ⟨s.enc.j, by simp [setActive, setEnc, ← ha]⟩
    · rename_i hmask
      rw [p1Group_eq s hmask]
      obtain ⟨j, hj⟩ := ih (setEnc { s.enc with
        out := s.enc.out ++ groupAt s.enc.pulled s.enc.j, pending := 0x00, j := s.enc.j + 1 } s) rfl ha
      exact ⟨j, by rw [hj]; simp [setEnc, hp]⟩

/-! ### The pull phase (42_p1_encoder.md R151) -/

theorem foldl_p1PullPort (ports : List Port) (t : State) :
    ports.foldl p1PullPort t = { t with
      enc := { t.enc with pulled := ports.foldl (fun v (q : Port) => v.set q t.env.pull[q]) t.enc.pulled }
      events := t.events ++ ports.map (fun q => .pull q pullMax t.env.pull[q]) } := by
  induction ports generalizing t with
  | nil => simp
  | cons q ports ih =>
    rw [List.foldl_cons, ih]
    simp [p1PullPort, emitPull, pullAnswer, emit, setEnc]

/-- Writing the answers of some ports leaves the other ports' entries. -/
theorem foldl_set_getElem (ports : List Port) (a v : Vector (List Byte) maxPortSlots) (q : Port) :
    (ports.foldl (fun v (q : Port) => v.set q a[q]) v)[q] = if q ∈ ports then a[q] else v[q] := by
  induction ports generalizing v with
  | nil => simp
  | cons p ports ih =>
    rw [List.foldl_cons, ih]
    by_cases hq : q ∈ ports
    · rw [if_pos hq, if_pos (List.mem_cons_of_mem _ hq)]
    · by_cases hp : q = p
      · subst hp; simp [hq]
      · have hv : p.val ≠ q.val := fun e => hp (Fin.ext e.symm)
        simp [hq, hp, Vector.getElem_set_ne _ _ hv]

/-- `d` after `Pull1()`: the answers of the pulled ports, and nothing for the others. -/
def pulledBytes (s : State) : Vector (List Byte) maxPortSlots :=
  (pulledPorts s).foldl (fun v (q : Port) => v.set q s.env.pull[q]) (Vector.replicate maxPortSlots [])

theorem pulledBytes_getElem (s : State) (q : Port) :
    (pulledBytes s)[q] = if q ∈ pulledPorts s then s.env.pull[q] else [] := by
  rw [pulledBytes, foldl_set_getElem]
  simp

theorem p1Pull_eq (s : State) :
    p1Pull (setEnc EncState.init s) = { s with
      enc := { EncState.init with pulled := pulledBytes s }
      events := s.events ++ pullEvents s } := foldl_p1PullPort _ _

theorem mem_pulledPorts_p1 (hv : s.variant = .p1) (q : Port) :
    q ∈ pulledPorts s ↔ q.val < s.nOut.val ∧ q.val < 8 := by
  simp [pulledPorts, hv]

/-- The answer of a port that a mask can name. -/
theorem pulledBytes_maskPort (hv : s.variant = .p1) (m : MaskPort) :
    (pulledBytes s)[m.port] = if m.val < s.nOut.val then s.env.pull[m.port] else [] := by
  have hm : m.port ∈ pulledPorts s ↔ m.val < s.nOut.val :=
    (mem_pulledPorts_p1 hv m.port).trans (and_iff_left m.isLt)
  rw [pulledBytes_getElem]
  simp only [hm]

/-- No answer is too long (46_control.md R238). -/
theorem pulledBytes_length_le (hl : answersLegal s = true) (q : Port) : (pulledBytes s)[q].length ≤ 3 := by
  rw [pulledBytes_getElem]
  split
  · rename_i hq
    exact of_decide_eq_true (List.all_eq_true.1 hl q hq)
  · exact Nat.zero_le _

/-- The first mask is empty when every pulled port answered with nothing (R155). -/
theorem offsetMask_pulledBytes (hv : s.variant = .p1) :
    offsetMask (pulledBytes s) 0 = 0x00 ↔ ∀ q ∈ pulledPorts s, s.env.pull[q] = [] := by
  simp only [offsetMask_eq_zero_iff, Nat.le_zero, List.length_eq_zero_iff]
  constructor
  · intro h q hq
    obtain ⟨_, hq8⟩ := (mem_pulledPorts_p1 hv q).1 hq
    have hnil := h ⟨q.val, hq8⟩
    rw [pulledBytes_getElem] at hnil
    exact (if_pos hq).symm.trans hnil
  · intro h m
    rw [pulledBytes_getElem]
    split
    · rename_i hq; exact h _ hq
    · rfl

/-! ### The encoder invocation -/

/-- A packet of the bytes pulled: header, groups and end marker (30_encoding.md R84). -/
def p1Packet (s : State) : List Byte := [s.seq, 0x00] ++ groupsFrom (pulledBytes s) 3 0 ++ [0x00, 0x00]

theorem p1Packet_length (s : State) : (p1Packet s).length = (groupsFrom (pulledBytes s) 3 0).length + 4 := by
  simp [p1Packet]

/-- What stands when the groups are complete: the header and the body, after the pull phase's events. -/
theorem p1Assembled_eq (ha : s.active = false) :
    ∃ j, p1Groups p1Offsets (p1EmitRsvd (p1EmitSeq (p1Pull (setEnc EncState.init s)))) = { s with
      enc := { EncState.init with
        pulled := pulledBytes s, out := [s.seq, 0x00] ++ groupsFrom (pulledBytes s) 3 0, j := j }
      seq := s.seq + 1
      events := s.events ++ pullEvents s } := by
  rw [p1Pull_eq]
  obtain ⟨j, hj⟩ := p1Groups_eq p1Offsets (p1EmitRsvd (p1EmitSeq { s with
    enc := { EncState.init with pulled := pulledBytes s }
    events := s.events ++ pullEvents s })) rfl ha
  exact ⟨j, hj⟩

/-- Everything `Finish1` does (R156, R157). -/
theorem p1Finish_eq (s : State) :
    p1Finish s = { s with
      enc := { s.enc with out := s.enc.out ++ [0x00, 0x00], ends := s.enc.ends + 2 }
      active := s.active || s.env.accept
      events := s.events ++
        submitEvents 1 (s.enc.out ++ [0x00, 0x00]) [(0, (s.enc.out ++ [0x00, 0x00]).length)] s.env.accept } := by
  simp [p1Finish, submit_eq, p1EmitEnd, setEnc]

/-- An invocation that pulls no byte submits nothing (R155). -/
theorem p1Encode_of_nothing (hv : s.variant = .p1) (ha : s.active = false)
    (hnone : ∀ q ∈ pulledPorts s, s.env.pull[q] = []) :
    p1Encode s = { s with enc := EncState.init, seq := s.seq + 1, events := s.events ++ pullEvents s } := by
  obtain ⟨j, hj⟩ := p1Assembled_eq ha
  have hbody : groupsFrom (pulledBytes s) 3 0 = [] := if_pos ((offsetMask_pulledBytes hv).2 hnone)
  rw [p1Encode, hj, hbody]
  rfl

/-- An invocation that pulls some byte submits its packet as one sub-frame (R156, R157). -/
theorem p1Encode_of_some (ha : s.active = false) (hsome : offsetMask (pulledBytes s) 0 ≠ 0x00) :
    p1Encode s = { s with
      enc := EncState.init
      seq := s.seq + 1
      active := s.env.accept
      events := s.events ++ pullEvents s ++ submitEvents 1 (p1Packet s) [(0, (p1Packet s).length)] s.env.accept } := by
  obtain ⟨j, hj⟩ := p1Assembled_eq ha
  have hlong : ([s.seq, 0x00] ++ groupsFrom (pulledBytes s) 3 0).length ≠ p1Header := by
    have htwo : 2 ≤ (groupsFrom (pulledBytes s) 3 0).length := two_le_groupsFrom_length hsome
    simp only [List.length_append, List.length_cons, List.length_nil, p1Header]
    omega
  rw [p1Encode, hj]
  dsimp only
  rw [if_neg hlong, p1Finish_eq]
  simp [setEnc, p1Packet, ha]

/-- Settles O54: the packet is the header, the groups of the pulled bytes and the end marker, and the grammar reads the
groups back. -/
theorem p1PacketCarriesEveryPulledByte : Obligations.P1PacketCarriesEveryPulledByte := by
  intro s i henc hv
  have ⟨_, hlegal, _⟩ := henc
  have hexec : exec i s = .next (accept (p1Encode (setActive false s))) := by
    rw [exec_of_encodes henc, encodePacket, setActive_variant, hv]
  by_cases hnone : ∀ q ∈ pulledPorts s, s.env.pull[q] = []
  · have hencode := p1Encode_of_nothing (s := setActive false s) hv rfl hnone
    rw [hencode] at hexec
    refine ⟨_, [], hexec, (List.append_nil _).symm, rfl, rfl, ?_⟩
    rw [if_pos hnone]
    exact ⟨rfl, rfl⟩
  · have hsome : offsetMask (pulledBytes s) 0 ≠ 0x00 := fun h => hnone ((offsetMask_pulledBytes hv).1 h)
    have hencode := p1Encode_of_some (s := setActive false s) rfl hsome
    rw [hencode] at hexec
    refine ⟨_, submitEvents 1 (p1Packet s) [(0, (p1Packet s).length)] s.env.accept, hexec, rfl, rfl, rfl, ?_⟩
    rw [if_neg hnone, p1Packet_length]
    refine ⟨groupsFrom (pulledBytes s) 3 0, two_le_groupsFrom_length hsome, groupsFrom_length_le _ 3 0, rfl, rfl,
      fun m => ?_⟩
    rw [payloadFor_groupsFrom _ m (pulledBytes_length_le hlegal _), pulledBytes_maskPort hv]

/-! ### The rows of `P1.out` -/

theorem inP1Out_eq_true (h : P1Encoding s) : inP1Out s = true := by
  obtain ⟨ho, hv, ha⟩ := h
  simp [inP1Out, inSession, ho, hv, ha]

/-- Settles O53: the mask row appends the mask of the present offset, and the payload row the byte of the lowest port
that is owed one. -/
theorem groupCarriesOneBytePerMaskBit : Obligations.GroupCarriesOneBytePerMaskBit := by
  intro s b henc
  have hin := inP1Out_eq_true henc
  constructor
  · intro hout hpending hj hb hbits
    have hmask : b = groupMask s.enc := eq_offsetMask hbits
    refine (whenSelected_next _ _ _ _).2 ⟨?_, rfl⟩
    have hne : ¬ b = 0#8 := hb
    simp [hin, hout, hpending, hj, hne, ← hmask]
  · intro m hm hbelow hb
    have hlow : lowbit s.enc.pending 0 = some m :=
      (lowbit_some _ _ _).2 ⟨Nat.zero_le _, hm, fun k _ hk => hbelow k hk⟩
    change execP1outPayload b s = _
    rw [execP1outPayload, hlow, hb]
    refine (whenSelected_next _ _ _ _).2 ⟨?_, rfl⟩
    simp [-Fin.getElem_fin, hin, payloadByte]

/-- Behind the last group the end marker row runs as long as a byte of the marker is missing (R156). -/
theorem exec_p1outEnd (henc : P1Encoding s) (hout : 2 < s.enc.out.length) (hpending : s.enc.pending = 0x00)
    (hlast : 3 ≤ s.enc.j ∨ ∀ m : MaskPort, s.enc.pulled[m.port].length ≤ s.enc.j) :
    exec .p1outEnd s = whenSelected "P1OUT.END" (decide (s.enc.ends < 2)) (p1EmitEnd s) := by
  have hover : (decide (p1Offsets ≤ s.enc.j) || groupMask s.enc == 0x00) = true := by
    rw [Bool.or_eq_true, decide_eq_true_eq, beq_iff_eq, groupMask_eq, offsetMask_eq_zero_iff]
    exact hlast
  change execP1outEnd s = _
  rw [execP1outEnd, hover, inP1Out_eq_true henc]
  simp [hout, hpending]

/-- Settles O52: each header row runs at its own place, and the end marker row runs for each of two bytes. -/
theorem headerAndEndMarkerFrameThePacket : Obligations.HeaderAndEndMarkerFrameThePacket := by
  intro s henc
  have hin := inP1Out_eq_true henc
  refine ⟨fun hout => ?_, fun b hout => ?_, fun hout hpending hlast => ?_⟩
  · refine (whenSelected_next _ _ _ _).2 ⟨by simp [hin, hout], ?_⟩
    simp [p1EmitSeq, appendOut, setSeq, setEnc, hout]
  · refine (whenSelected_next _ _ _ _).2 ⟨by simp [hin, hout], ?_⟩
    simp [p1EmitRsvd, appendOut, setEnc, hout]
  · have hexec := exec_p1outEnd henc hout hpending hlast
    refine ⟨fun hends => ?_, fun hends => ⟨p1EmitEnd s, ?_, ?_⟩, fun hends => ?_⟩
    · rw [hexec]
      exact (whenSelected_next _ _ _ _).2 ⟨decide_eq_true hends, rfl⟩
    · rw [hexec, hends]
      rfl
    · have hout' : 2 < (p1EmitEnd s).enc.out.length := by simp [p1EmitEnd]; omega
      rw [exec_p1outEnd (s := p1EmitEnd s) henc hout' hpending hlast]
      refine (whenSelected_next _ _ _ _).2 ⟨by simp [p1EmitEnd, hends], ?_⟩
      simp [p1EmitEnd, setEnc, hends]
    · rw [hexec, decide_eq_false (Nat.not_lt.2 hends)]
      rfl

end Sys2Proof.Machine
end

section
/-! PROOFS. What a row of the P2 decoder writes, as a function of the record of its port: the effect of each of the rows
of Data, FixedLen and SysEx (43_p2_decoder.md R170 to R177). -/

namespace Sys2Proof.Machine

variable {s : State} {p : Port} {r : InRec} {t : LenTable}

/-! ### Effects -/

/-- What a row of Data, FixedLen or SysEx leaves: the record of its port, the decoder state, the selected port, and the
events that the row adds. -/
structure P2Effect where
  record : InRec
  p2State : P2State
  selectedPort : Option Port
  events : List Event

/-- The effect is written to the state, the record being that of port `p`. -/
def P2Effect.apply (x : P2Effect) (p : Port) (s : State) : State :=
  { s with
    ia := s.ia.set p x.record, p2State := x.p2State, selectedPort := x.selectedPort, events := s.events ++ x.events }

theorem P2Effect.apply_record (x : P2Effect) (p : Port) (s : State) : (x.apply p s).ia[p] = x.record :=
  modIn_self p (fun _ => x.record) s

theorem P2Effect.apply_onlyP2Input (x : P2Effect) (p : Port) (s : State) : OnlyP2Input p s (x.apply p s) :=
  ⟨rfl, fun p' hp => modIn_ne p p' (fun _ => x.record) s hp⟩

/-- RxOverflow empties the record (R177). -/
def InRec.overflowed (p : Port) (r : InRec) : P2Effect :=
  ⟨r.resetRecord, .waitMarker, none, [.report 1 (portByte p)]⟩

/-- Complete delivers the full buffer (R176). -/
def InRec.completed (p : Port) (r : InRec) : P2Effect := ⟨r.clear, .data, some p, [.deliver p r.bytes]⟩

/-- The buffer waits for more bytes, in a state that keeps its port. -/
def InRec.waiting (st : P2State) (p : Port) (r : InRec) : P2Effect := ⟨r, st, some p, []⟩

/-- The completion test of R173 and R174. -/
def InRec.checked (p : Port) (r : InRec) : P2Effect :=
  if r.bytesRemaining ≤ r.length then r.completed p else r.waiting .fixedLen p

/-- The total length that FixedLen awaits after a last command that is neither `F5` nor `F0` (R172). -/
def awaitedLength (t : LenTable) (command : Byte) : Nat :=
  match lengthOf t command with
  | .fixed total => total
  | _ => implied3

/-- Classify by the last command (R172). -/
def InRec.classified (t : LenTable) (p : Port) (r : InRec) : P2Effect :=
  if r.lastCommand = 0xF5 then ⟨r, .portSelect, none, []⟩
  else if r.lastCommand = 0xF0 then r.waiting .sysEx p
  else (r.withRemaining (awaitedLength t r.lastCommand)).checked p

/-- One append and what follows it, or the overflow. -/
def InRec.appendEffect (p : Port) (b : Byte) (next : InRec → P2Effect) (r : InRec) : P2Effect :=
  if r.length = cap then r.overflowed p else next (r.push b)

/-! ### A state with another record -/

/-- `s` with `r` for the record of port `p`. -/
def withRecord (p : Port) (r : InRec) (s : State) : State := modIn p (fun _ => r) s

theorem withRecord_record (p : Port) (r : InRec) (s : State) : (withRecord p r s).ia[p] = r :=
  modIn_self p (fun _ => r) s

theorem withRecord_self (p : Port) (s : State) : withRecord p s.ia[p] s = s := by
  simp [withRecord, modIn]

theorem modIn_withRecord (p : Port) (f : InRec → InRec) (r : InRec) (s : State) :
    modIn p f (withRecord p r s) = withRecord p (f r) s := by
  simp [withRecord, modIn, Vector.set_set]

/-! ### The shared operations of the rows -/

theorem p2Overflow_withRecord (p : Port) (r : InRec) (s : State) :
    p2Overflow p (withRecord p r s) = (r.overflowed p).apply p s :=
  congrArg (setP2 .waitMarker none)
    (modIn_withRecord p InRec.resetRecord r (raiseCondition .rxOverflow (portByte p) s))

theorem p2Complete_withRecord (hp : s.selectedPort = some p) (r : InRec) :
    p2Complete p (withRecord p r s) = (r.completed p).apply p s := by
  have hport : (withRecord p r s).selectedPort = some p := hp
  rw [p2Complete, hport, withRecord_record]
  exact congrArg (setP2 .data (some p)) (modIn_withRecord p InRec.clear r (emit (.deliver p r.bytes) s))

/-- A row that only changes the record and moves the decoder, its port selected. -/
theorem setP2_withRecord (st : P2State) (p : Port) (r : InRec) (s : State) :
    setP2 st (some p) (withRecord p r s) = (r.waiting st p).apply p s := by
  simp [P2Effect.apply, InRec.waiting, setP2, withRecord, modIn]

theorem withRecord_waiting {st : P2State} (hst : s.p2State = st) (hp : s.selectedPort = some p) (r : InRec) :
    withRecord p r s = (r.waiting st p).apply p s := by
  rw [← setP2_withRecord, ← hst, ← hp]
  rfl

theorem p2CompleteIfFull_withRecord (hst : s.p2State = .fixedLen) (hp : s.selectedPort = some p) (r : InRec) :
    p2CompleteIfFull p (withRecord p r s) = (r.checked p).apply p s := by
  rw [p2CompleteIfFull, withRecord_record, InRec.checked]
  split
  · exact p2Complete_withRecord hp r
  · exact withRecord_waiting hst hp r

theorem p2EnterFixed_withRecord (hp : s.selectedPort = some p) (total : Nat) (r : InRec) :
    p2EnterFixed p total (withRecord p r s) = ((r.withRemaining total).checked p).apply p s := by
  have hport : (withRecord p r s).selectedPort = some p := hp
  rw [p2EnterFixed, hport, modIn_withRecord]
  exact p2CompleteIfFull_withRecord (s := setP2 .fixedLen (some p) s) rfl rfl _

/-- `F0` is the one byte of a variable length (40_length_table.md R123). -/
theorem lengthOf_eq_variableLen (t : LenTable) (b : Byte) : lengthOf t b = .variableLen ↔ b = 0xF0 := by
  refine ⟨fun h => ?_, fun h => h ▸ lengthOf_sysex t⟩
  by_contra hne
  cases hb : isStatus b with
  | false =>
    have hdata : b.toNat < 0x80 := (isData_iff b).1 (by simp [hb])
    cases (lengthOf_data t b hdata).symm.trans h
  | true =>
    by_cases hf : b = 0xFF
    · subst hf
      cases (lengthOf_ff t).symm.trans h
    · obtain ⟨n, hn⟩ := lengthOf_status t b hb hne hf
      cases hn.symm.trans h

theorem p2Classify_withRecord (hp : s.selectedPort = some p) (r : InRec) :
    p2Classify p (withRecord p r s) = (r.classified s.lenTable p).apply p s := by
  have hport : (withRecord p r s).selectedPort = some p := hp
  have htable : (withRecord p r s).lenTable = s.lenTable := rfl
  rw [p2Classify, withRecord_record, hport, htable, InRec.classified]
  split
  · simp [P2Effect.apply, setP2, withRecord, modIn]
  · cases hlen : lengthOf s.lenTable r.lastCommand with
    | variableLen =>
      rw [if_pos ((lengthOf_eq_variableLen _ _).1 hlen)]
      exact setP2_withRecord .sysEx p r s
    | fixed total =>
      have hne : ¬ r.lastCommand = 0xF0 := fun h => by cases ((lengthOf_eq_variableLen _ _).2 h).symm.trans hlen
      rw [if_neg hne, awaitedLength, hlen]
      exact p2EnterFixed_withRecord hp total r
    | notACommand =>
      have hne : ¬ r.lastCommand = 0xF0 := fun h => by cases ((lengthOf_eq_variableLen _ _).2 h).symm.trans hlen
      rw [if_neg hne, awaitedLength, hlen]
      exact p2EnterFixed_withRecord hp implied3 r

theorem append_withRecord (p : Port) (b : Byte) (next : State → State) (effect : InRec → P2Effect) (s : State)
    (hnext : ∀ u : InRec, next (withRecord p u s) = (effect u).apply p s) (r : InRec) :
    (match append p b (withRecord p r s) with
      | none => p2Overflow p (withRecord p r s)
      | some t => next t) = (r.appendEffect p b effect).apply p s := by
  rw [append, withRecord_record, InRec.appendEffect, modIn_withRecord]
  by_cases hfull : r.length = cap
  · rw [if_pos hfull, if_pos hfull]
    exact p2Overflow_withRecord p r s
  · rw [if_neg hfull, if_neg hfull]
    exact hnext (r.push b)

/-! ### The rows -/

theorem p2DataStatus_eq (b : Byte) (hp : s.selectedPort = some p) :
    p2DataStatus b p s =
      ((s.ia[p].withCommand b).appendEffect p b (InRec.classified s.lenTable p)).apply p s :=
  append_withRecord p b _ _ s (p2Classify_withRecord hp) (s.ia[p].withCommand b)

theorem p2DataData_eq (b : Byte) (hp : s.selectedPort = some p) :
    p2DataData b p s =
      (s.ia[p].appendEffect p s.ia[p].lastCommand
        (InRec.appendEffect p b (InRec.classified s.lenTable p))).apply p s := by
  have hrow := append_withRecord p s.ia[p].lastCommand
    (fun t => match append p b t with
      | none => p2Overflow p t
      | some u => p2Classify p u)
    _ s (append_withRecord p b _ _ s (p2Classify_withRecord hp)) s.ia[p]
  rw [withRecord_self] at hrow
  exact hrow

theorem p2FixedByte_eq (b : Byte) (hst : s.p2State = .fixedLen) (hp : s.selectedPort = some p) :
    p2FixedByte b p s = (s.ia[p].appendEffect p b (InRec.checked p)).apply p s := by
  have hrow := append_withRecord p b _ _ s (p2CompleteIfFull_withRecord hst hp) s.ia[p]
  rw [withRecord_self] at hrow
  exact hrow

theorem p2SysexEnd_eq (hp : s.selectedPort = some p) :
    p2SysexEnd p s = (s.ia[p].appendEffect p 0xF7 (InRec.completed p)).apply p s := by
  have hrow := append_withRecord p sysexEnd _ _ s (p2Complete_withRecord hp) s.ia[p]
  rw [withRecord_self] at hrow
  exact hrow

theorem p2SysexByte_eq (b : Byte) (hst : s.p2State = .sysEx) (hp : s.selectedPort = some p) :
    p2SysexByte b p s = (s.ia[p].appendEffect p b (InRec.waiting .sysEx p)).apply p s := by
  have hrow := append_withRecord p b id _ s (withRecord_waiting hst hp) s.ia[p]
  rw [withRecord_self] at hrow
  exact hrow

/-! ### The effects, case by case -/

theorem InRec.appendEffect_full (p : Port) (b : Byte) (next : InRec → P2Effect) (h : r.length = 64) :
    r.appendEffect p b next = r.overflowed p := if_pos h

theorem InRec.appendEffect_room (p : Port) (b : Byte) (next : InRec → P2Effect) (h : r.length ≠ 64) :
    r.appendEffect p b next = next (r.push b) := if_neg h

theorem InRec.checked_complete (h : r.bytesRemaining ≤ r.length) : r.checked p = r.completed p := if_pos h

theorem InRec.checked_short (h : r.length < r.bytesRemaining) : r.checked p = r.waiting .fixedLen p :=
  if_neg (Nat.not_le.2 h)

theorem InRec.checked_lastCommand (p : Port) (r : InRec) : (r.checked p).record.lastCommand = r.lastCommand := by
  unfold InRec.checked
  split <;> rfl

theorem InRec.classified_lastCommand (t : LenTable) (p : Port) (r : InRec) :
    (r.classified t p).record.lastCommand = r.lastCommand := by
  unfold InRec.classified
  split
  · rfl
  · split
    · rfl
    · exact InRec.checked_lastCommand p _

theorem InRec.classified_marker (h : r.lastCommand = 0xF5) : r.classified t p = ⟨r, .portSelect, none, []⟩ :=
  if_pos h

theorem InRec.classified_sysex (h : r.lastCommand = 0xF0) : r.classified t p = r.waiting .sysEx p := by
  have hne : ¬ r.lastCommand = 0xF5 := by rw [h]; decide
  rw [InRec.classified, if_neg hne, if_pos h]

/-- Any other message is complete when its bytes are there, and waits for them else (R173). -/
theorem InRec.classified_message (hm : r.lastCommand ≠ 0xF5) (hx : r.lastCommand ≠ 0xF0) :
    r.classified t p = (r.withRemaining (awaitedLength t r.lastCommand)).checked p := by
  rw [InRec.classified, if_neg hm, if_neg hx]

theorem awaitedLength_fixed {command : Byte} {n : Nat} (h : lengthOf t command = .fixed n) :
    awaitedLength t command = n := by
  rw [awaitedLength, h]

theorem awaitedLength_zero (t : LenTable) : awaitedLength t 0x00 = 3 := by
  rw [awaitedLength, lengthOf_zero]

/-! ### The bytes of a record -/

theorem InRec.bytes_eq_nil (h : r.length = 0) : r.bytes = [] := by
  rw [InRec.bytes, h, List.take_zero]

theorem InRec.push_bytes_of_empty (b : Byte) (h : r.length = 0) : (r.push b).bytes = [b] := by
  have hroom : r.length < cap := h.trans_lt (by decide)
  rw [r.push_bytes b hroom, InRec.bytes_eq_nil h, List.nil_append]

theorem InRec.push_push_bytes (r : InRec) (a b : Byte) (h : r.length < 63) :
    ((r.push a).push b).bytes = r.bytes ++ [a, b] := by
  have hroom : (r.push a).length < cap := Nat.succ_lt_succ h
  rw [InRec.push_bytes _ b hroom, InRec.push_bytes r a (Nat.lt_succ_of_lt h), List.append_assoc]
  rfl

end Sys2Proof.Machine
end

section
/-! PROOFS. Each row of the P2 decoder, told by its effect (43_p2_decoder.md R166 to R177). -/

namespace Sys2Proof.Machine

variable {s : State} {p : Port} {i : Instr}

/-! ### WaitMarker and PortSelect -/

/-- Settles O27: both rows are selected in WaitMarker. -/
theorem onlyAMarkerLeavesWaitMarker : Obligations.OnlyAMarkerLeavesWaitMarker := by
  intro s b ho hv hst
  have hin := inP2_eq_true ho hv hst
  exact ⟨(whenSelected_next _ _ _ _).2 ⟨hin, rfl⟩, fun _ => (whenSelected_next _ _ _ _).2 ⟨hin, rfl⟩⟩

theorem validPort_portByte (n : PortCount) (p : Port) (h : p.val < n.val) : validPort n (portByte p) = some p :=
  (validPort_some _ _ _).2 ⟨(portByte_toNat p).trans_lt h, portByte_toNat p⟩

/-- Settles O28: the index byte is no port of the session, or the byte of its port. -/
theorem portIndexSelectsOrResynchronizes : Obligations.PortIndexSelectsOrResynchronizes := by
  intro s ho hv hst
  have hin := inP2_eq_true ho hv hst
  constructor
  · intro b _ hb
    refine (whenSelected_next _ _ _ _).2 ⟨?_, rfl⟩
    rw [hin, (validPort_none s.nIn b).2 hb]
    rfl
  · intro p hp
    change execP2SelValid (portByte p) s = _
    rw [execP2SelValid, validPort_portByte s.nIn p hp]
    exact (whenSelected_next _ _ _ _).2 ⟨hin, rfl⟩

/-! ### Rows that have a selected port -/

/-- A row of Data, FixedLen or SysEx leaves the effect that its byte step has. -/
theorem selectedRow_next {row : String} {st : P2State} {f : Port → State → State} {x : P2Effect}
    (h : Selected st p s) (hf : f p s = x.apply p s) : onSelected row st f s = .next (x.apply p s) := by
  obtain ⟨ho, hv, hst, hp⟩ := h
  exact (onSelected_next _ _ _ _ _).2 ⟨p, hp, inP2_eq_true ho hv hst, hf.symm⟩

/-! ### Data -/

/-- A row that ends in Classify, the buffer holding the bytes of a message of this command. -/
theorem classified_outcome {r : InRec} {command : Byte} {bytes : List Byte}
    (hexec : exec i s = .next ((r.classified s.lenTable p).apply p s)) (hcommand : r.lastCommand = command)
    (hbytes : r.bytes = bytes) :
    ∃ t, exec i s = .next t ∧ OnlyP2Input p s t ∧ t.ia[p].lastCommand = command ∧
      (if command = 0xF5 then
        t.p2State = .portSelect ∧ t.selectedPort = none ∧ t.ia[p].bytes = bytes ∧ t.events = s.events
      else if command = 0xF0 then
        t.p2State = .sysEx ∧ t.selectedPort = some p ∧ t.ia[p].bytes = bytes ∧ t.events = s.events
      else if awaitedLength s.lenTable command ≤ r.length then
        t.p2State = .data ∧ t.selectedPort = some p ∧ t.ia[p].length = 0 ∧
          t.events = s.events ++ [.deliver p bytes]
      else
        t.p2State = .fixedLen ∧ t.selectedPort = some p ∧
          t.ia[p].bytesRemaining = awaitedLength s.lenTable command ∧ t.ia[p].bytes = bytes ∧
          t.events = s.events) := by
  subst hcommand hbytes
  refine ⟨_, hexec, P2Effect.apply_onlyP2Input _ p s, ?_⟩
  rw [P2Effect.apply_record]
  refine ⟨InRec.classified_lastCommand _ p r, ?_⟩
  split
  · rename_i hm
    rw [InRec.classified_marker hm]
    exact ⟨rfl, rfl, rfl, List.append_nil _⟩
  · rename_i hm
    split
    · rename_i hx
      rw [InRec.classified_sysex hx]
      exact ⟨rfl, rfl, rfl, List.append_nil _⟩
    · rename_i hx
      rw [InRec.classified_message hm hx]
      split
      · rename_i hcomplete
        rw [InRec.checked_complete hcomplete]
        exact ⟨rfl, rfl, rfl, rfl⟩
      · rename_i hshort
        rw [InRec.checked_short (Nat.lt_of_not_le hshort)]
        exact ⟨rfl, rfl, rfl, rfl, List.append_nil _⟩

/-- Settles O29: the buffer holds the status byte alone, and is classified by it. -/
theorem statusByteInDataIsClassified : Obligations.StatusByteInDataIsClassified := by
  intro s p b hsel hlen hwf hb
  have ⟨_, _, _, hp⟩ := hsel
  simp only [Instr.wf, Bool.and_eq_true, bne_iff_ne] at hb
  obtain ⟨hstatus, hfill⟩ := hb
  have hempty : (s.ia[p].withCommand b).length = 0 := hlen
  have hbytes : ((s.ia[p].withCommand b).push b).bytes = [b] := InRec.push_bytes_of_empty b hempty
  have hexec := selectedRow_next (row := "P2.DATA.STATUS") hsel (p2DataStatus_eq b hp)
  rw [InRec.appendEffect_room _ _ _ (by rw [hempty]; decide)] at hexec
  obtain ⟨t, hexec, honly, hcommand, hcase⟩ :=
    classified_outcome (i := .p2DataStatus b) (command := b) hexec rfl hbytes
  rw [InRec.push_length, hempty] at hcase
  refine ⟨t, hexec, honly, hcommand, ?_⟩
  split
  · rename_i hm
    rwa [if_pos hm, hm] at hcase
  · rename_i hm
    rw [if_neg hm] at hcase
    split
    · rename_i hx
      rwa [if_pos hx, hx] at hcase
    · rename_i hx
      obtain ⟨n, hn⟩ := lengthOf_status s.lenTable b hstatus hx hfill
      obtain ⟨hpos, _⟩ := lengthOf_range _ hwf b n hn
      rw [if_neg hx, awaitedLength_fixed hn] at hcase
      simp only [hn, LenClass.fixed.injEq]
      split
      · rename_i h1
        rwa [if_pos h1.le] at hcase
      · rename_i h1
        rw [if_neg (by omega)] at hcase
        obtain ⟨hst, hport, hremaining, hb, hevents⟩ := hcase
        exact ⟨hst, hport, hb, hremaining.symm, hevents⟩

/-- What FixedLen awaits in Data after a data byte: the length of the last command, and three bytes without one. -/
theorem awaitedLength_of_commandLegal (t : LenTable) (hwf : t.wf = true) (command : Byte)
    (hlegal : commandLegal command = true) (hx : command ≠ 0xF0) :
    awaitedLength t command ≤ 3 ∧
      (awaitedLength t command = 3 ↔ lengthOf t command = .fixed 3 ∨ command = 0x00) := by
  simp only [commandLegal, Bool.or_eq_true, Bool.and_eq_true, beq_iff_eq, bne_iff_ne] at hlegal
  rcases hlegal with rfl | ⟨hstatus, hfill⟩
  · exact ⟨(awaitedLength_zero t).le, iff_of_true (awaitedLength_zero t) (.inr rfl)⟩
  · obtain ⟨n, hn⟩ := lengthOf_status t command hstatus hx hfill
    have hne : command ≠ 0x00 := by rintro rfl; cases hstatus
    rw [awaitedLength_fixed hn, hn, LenClass.fixed.injEq]
    exact ⟨(lengthOf_range t hwf command n hn).2, (or_iff_left hne).symm⟩

/-- Settles O30: the buffer holds the last command and the data byte, and is classified by that command. -/
theorem dataByteInDataIsExpanded : Obligations.DataByteInDataIsExpanded := by
  intro s p b hsel hlen hwf hlegal
  have ⟨_, _, _, hp⟩ := hsel
  have hbytes : ((s.ia[p].push s.ia[p].lastCommand).push b).bytes = [s.ia[p].lastCommand, b] := by
    rw [InRec.push_push_bytes _ _ b (by rw [hlen]; decide), InRec.bytes_eq_nil hlen, List.nil_append]
  have hexec := selectedRow_next (row := "P2.DATA.DATA") hsel (p2DataData_eq b hp)
  rw [InRec.appendEffect_room _ _ _ (by rw [hlen]; decide),
    InRec.appendEffect_room _ _ _ (by rw [InRec.push_length, hlen]; decide)] at hexec
  obtain ⟨t, hexec, honly, hcommand, hcase⟩ :=
    classified_outcome (i := .p2DataData b) (command := s.ia[p].lastCommand) hexec rfl hbytes
  rw [InRec.push_length, InRec.push_length, hlen] at hcase
  refine ⟨t, hexec, honly, hcommand, ?_⟩
  split
  · rename_i hm
    rwa [if_pos hm, hm] at hcase
  · rename_i hm
    rw [if_neg hm] at hcase
    split
    · rename_i hx
      rwa [if_pos hx, hx] at hcase
    · rename_i hx
      obtain ⟨hle, hthree⟩ := awaitedLength_of_commandLegal s.lenTable hwf _ hlegal hx
      rw [if_neg hx] at hcase
      split
      · rename_i h3
        rwa [if_neg (by rw [hthree.2 h3]; decide), hthree.2 h3] at hcase
      · rename_i h3
        have hne := mt hthree.1 h3
        rwa [if_pos (by omega)] at hcase

/-! ### FixedLen and SysEx -/

/-- Settles O31: the buffer with the byte appended is checked for completion. -/
theorem fixedLenDeliversAtItsLength : Obligations.FixedLenDeliversAtItsLength := by
  intro s p b hsel hlen _
  have ⟨_, _, hst, hp⟩ := hsel
  have hbytes : (s.ia[p].push b).bytes = s.ia[p].bytes ++ [b] := s.ia[p].push_bytes b hlen
  have hexec := selectedRow_next (row := "P2.FIXED") hsel (p2FixedByte_eq b hst hp)
  rw [InRec.appendEffect_room _ _ _ hlen.ne] at hexec
  rw [← hbytes]
  split
  · rename_i hcomplete
    rw [InRec.checked_complete hcomplete] at hexec
    refine ⟨_, hexec, P2Effect.apply_onlyP2Input _ p s, rfl, ?_⟩
    rw [P2Effect.apply_record]
    exact ⟨rfl, rfl, rfl, rfl, rfl, rfl⟩
  · rename_i hshort
    rw [InRec.checked_short (Nat.lt_of_not_le hshort)] at hexec
    refine ⟨_, hexec, P2Effect.apply_onlyP2Input _ p s, rfl, ?_⟩
    rw [P2Effect.apply_record]
    exact ⟨rfl, rfl, rfl, rfl, List.append_nil _⟩

/-- Both rows of SysEx append their byte, and `F7` alone completes the span. -/
theorem exec_sysexRow {b : Byte} (hsel : Selected .sysEx p s)
    (hi : (i = .p2SysexEnd ∧ b = 0xF7) ∨ (i = .p2SysexByte b ∧ i.wf = true)) :
    exec i s = .next ((s.ia[p].appendEffect p b fun r =>
      if b = 0xF7 then r.completed p else r.waiting .sysEx p).apply p s) := by
  have ⟨_, _, hst, hp⟩ := hsel
  rcases hi with ⟨rfl, rfl⟩ | ⟨rfl, hwf⟩
  · exact selectedRow_next (row := "P2.SYSEX.END") hsel (p2SysexEnd_eq hp)
  · simp only [Instr.wf, Bool.and_eq_true, bne_iff_ne] at hwf
    obtain ⟨hend, _⟩ := hwf
    simp only [if_neg hend]
    exact selectedRow_next (row := "P2.SYSEX.BYTE") hsel (p2SysexByte_eq b hst hp)

/-- Settles O32: an append overflows, completes the span, or leaves it open. -/
theorem sysexSpanEndsAtItsEndByte : Obligations.SysexSpanEndsAtItsEndByte := by
  intro s p b i hsel hlen hi
  have hexec := exec_sysexRow hsel hi
  split
  · rename_i hfull
    rw [InRec.appendEffect_full _ _ _ hfull] at hexec
    refine ⟨_, hexec, P2Effect.apply_onlyP2Input _ p s, ?_⟩
    rw [P2Effect.apply_record]
    exact ⟨rfl, rfl, rfl, rfl, rfl, rfl, rfl⟩
  · rename_i hroom
    have hbytes : (s.ia[p].push b).bytes = s.ia[p].bytes ++ [b] := s.ia[p].push_bytes b (lt_of_le_of_ne hlen hroom)
    rw [InRec.appendEffect_room _ _ _ hroom] at hexec
    split
    · rename_i hend
      rw [if_pos hend] at hexec
      refine ⟨_, hexec, P2Effect.apply_onlyP2Input _ p s, ?_⟩
      rw [P2Effect.apply_record, ← hend, ← hbytes]
      exact ⟨rfl, rfl, rfl, rfl, rfl, rfl⟩
    · rename_i hend
      rw [if_neg hend] at hexec
      refine ⟨_, hexec, P2Effect.apply_onlyP2Input _ p s, ?_⟩
      rw [P2Effect.apply_record, ← hbytes]
      exact ⟨rfl, rfl, rfl, rfl, List.append_nil _⟩

end Sys2Proof.Machine
end

section
/-! PROOFS. A P2 packet is its byte steps, then the rearm, and filler is no part of it (43_p2_decoder.md R165, R166,
46_control.md R231, R241). -/

namespace Sys2Proof.Machine

variable {s t u : State} {p : Port}

/-! ### The frame of the byte steps -/

/-- `t` differs from `s` only in what the P2 decoder writes, and the events it adds are the decoder's own. -/
def P2Runs (s t : State) : Prop :=
  ∃ added, (∀ e ∈ added, e.ofDecoder = true) ∧
    t = { s with
      ia := t.ia, p2State := t.p2State, selectedPort := t.selectedPort, cursor := t.cursor
      events := s.events ++ added }

theorem P2Runs.of_quiet
    (h : t = { s with ia := t.ia, p2State := t.p2State, selectedPort := t.selectedPort, cursor := t.cursor }) :
    P2Runs s t := by
  refine ⟨[], fun _ he => (List.not_mem_nil he).elim, ?_⟩
  rw [List.append_nil]
  exact h

theorem P2Runs.refl (s : State) : P2Runs s s := .of_quiet rfl

theorem P2Runs.trans (h : P2Runs s t) (h' : P2Runs t u) : P2Runs s u := by
  obtain ⟨es, hes, ht⟩ := h
  obtain ⟨es', hes', hu⟩ := h'
  refine ⟨es ++ es', fun e he => (List.mem_append.1 he).elim (hes e) (hes' e), ?_⟩
  rw [hu, ht, List.append_assoc]

theorem P2Effect.apply_runs (x : P2Effect) (p : Port) (s : State) (h : ∀ e ∈ x.events, e.ofDecoder = true) :
    P2Runs s (x.apply p s) := ⟨x.events, h, rfl⟩

/-! ### The events of an effect -/

theorem InRec.checked_events (p : Port) (r : InRec) : ∀ e ∈ (r.checked p).events, e.ofDecoder = true := by
  unfold InRec.checked
  split
  · simp [InRec.completed, Event.ofDecoder]
  · simp [InRec.waiting]

theorem InRec.classified_events (t : LenTable) (p : Port) (r : InRec) :
    ∀ e ∈ (r.classified t p).events, e.ofDecoder = true := by
  unfold InRec.classified
  split
  · simp
  · split
    · simp [InRec.waiting]
    · exact InRec.checked_events p _

theorem InRec.appendEffect_events (p : Port) (b : Byte) (next : InRec → P2Effect)
    (hnext : ∀ u : InRec, ∀ e ∈ (next u).events, e.ofDecoder = true) (r : InRec) :
    ∀ e ∈ (r.appendEffect p b next).events, e.ofDecoder = true := by
  unfold InRec.appendEffect
  split
  · simp [InRec.overflowed, Event.ofDecoder]
  · exact hnext _

/-! ### Every byte -/

theorem P2Row.runs {W : Prop} (h : P2Row W s t) : P2Runs s t := by
  cases h with
  | marker | selectValid => exact .of_quiet rfl
  | selectInvalid b => exact ⟨[.report 2 b], by simp [Event.ofDecoder], rfl⟩
  | dataStatus p b _ hp =>
    rw [p2DataStatus_eq b hp]
    exact P2Effect.apply_runs _ _ _ (InRec.appendEffect_events p b _ (InRec.classified_events _ p) _)
  | dataData p b _ hp =>
    rw [p2DataData_eq b hp]
    exact P2Effect.apply_runs _ _ _ (InRec.appendEffect_events p _ _
      (InRec.appendEffect_events p b _ (InRec.classified_events _ p)) _)
  | fixedByte p b hst hp =>
    rw [p2FixedByte_eq b hst hp]
    exact P2Effect.apply_runs _ _ _ (InRec.appendEffect_events p b _ (InRec.checked_events p) _)
  | sysexEnd p _ hp =>
    rw [p2SysexEnd_eq hp]
    exact P2Effect.apply_runs _ _ _
      (InRec.appendEffect_events p _ _ (fun u => by simp [InRec.completed, Event.ofDecoder]) _)
  | sysexByte p b hst hp =>
    rw [p2SysexByte_eq b hst hp]
    exact P2Effect.apply_runs _ _ _ (InRec.appendEffect_events p b _ (fun u => by simp [InRec.waiting]) _)

theorem p2Byte_runs (b : Byte) (s : State) : P2Runs s (p2Byte b s) := by
  rcases p2Byte_row b s with h | h
  · rw [h]
    exact .refl s
  · exact h.runs

theorem scanBytes_p2_runs (body : List Byte) (s : State) : P2Runs s (scanBytes p2Byte body s) :=
  scanBytes_keeps (P2Runs s) p2Byte (fun b x h => (h.trans (p2Byte_runs b x)).trans (.of_quiet rfl)) body s (.refl s)

/-! ### The packet -/

/-- The state in which the byte steps of a P2 packet start (R165). -/
def p2PacketStart (s : State) : State := { s with rxPosted := false, cursor := 1 }

theorem accept_receive_p2 (pkt : List Byte) (hv : s.variant = .p2) :
    accept (receive pkt s) = accept (rearm (setCursor 0 (scanBytes p2Byte (pkt.drop 1) (p2PacketStart s)))) := by
  rw [receive_p2 pkt hv]
  rfl

/-- Settles O35: the byte steps write the decoder's part of the state, and the packet's end the rest. -/
theorem p2ReceiveEndsWithRearm : Obligations.P2ReceiveEndsWithRearm := by
  intro s pkt ho hv hr
  have hexec := exec_rxPacket pkt ho hr
  rw [accept_receive_p2 pkt hv] at hexec
  have hu := scanBytes_eq_foldl p2Byte (pkt.drop 1) (p2PacketStart s)
  obtain ⟨middle, hmiddle, hframe⟩ := scanBytes_p2_runs (pkt.drop 1) (p2PacketStart s)
  generalize scanBytes p2Byte (pkt.drop 1) (p2PacketStart s) = u at *
  have hevents : u.events = s.events ++ middle := by rw [hframe]; rfl
  refine ⟨_, u, middle, hexec, hu, hevents, hmiddle, rfl, ?_⟩
  rw [hframe]
  simp only [accept, rearm, emit, setRxPosted, setCursor, p2PacketStart, hr]

/-! ### Filler -/

theorem p2Byte_filler (s : State) : p2Byte 0xFF s = s := if_pos rfl

theorem SameStream.refl (s : State) : SameStream s s := by constructor <;> rfl

theorem SameStream.withoutFiller (body : List Byte) (h : SameStream s t) :
    SameStream (Machine.scanBytes Machine.p2Byte body s)
      (Machine.scanBytes Machine.p2Byte (body.filter (fun x => x != 0xFF)) t) := by
  induction body generalizing s t with
  | nil => exact h
  | cons b body ih =>
    by_cases hb : b = 0xFF
    · subst hb
      rw [List.filter_cons_of_neg (by decide), Machine.scanBytes, p2Byte_filler]
      exact ih (h.setCursor _ t.cursor)
    · rw [List.filter_cons_of_pos (by simpa using hb)]
      exact ih ((h.p2Byte b).setCursor _ _)

/-- Receive requests are no events of the decoder. -/
theorem streamEvents_of_runs {added : List Event} (hadded : ∀ e ∈ added, e.ofDecoder = true)
    (h : t.events = s.events ++ added) : streamEvents t = streamEvents s ++ added := by
  have hall : added.filter (fun e => e != .rxRearm) = added := by
    refine List.filter_eq_self.2 fun e he => bne_iff_ne.2 ?_
    rintro rfl
    cases hadded _ he
  rw [streamEvents, h, List.filter_append, hall, streamEvents]

/-- Two runs of the decoder from one state that agree in the stream differ at most in the cursor. -/
theorem P2Runs.eq_of_sameStream (ht : P2Runs s t) (hu : P2Runs s u) (h : SameStream t u) :
    setCursor 0 t = setCursor 0 u := by
  obtain ⟨es, hes, ht⟩ := ht
  obtain ⟨es', hes', hu⟩ := hu
  obtain ⟨hia, hst, hp, _, _, hevents⟩ := h
  have ht' : t.events = s.events ++ es := by rw [ht]
  have hu' : u.events = s.events ++ es' := by rw [hu]
  rw [streamEvents_of_runs hes ht', streamEvents_of_runs hes' hu'] at hevents
  have hadded : es = es' := List.append_cancel_left hevents
  rw [hia, hst, hp, hadded] at ht
  rw [ht, hu]
  rfl

/-- Settles O25: filler is no part of the stream, so both packets leave one state at their last byte, up to the cursor,
and the packet's end puts that back. -/
theorem fillerIsTransparent : Obligations.FillerIsTransparent := by
  refine ⟨fun s ho hv => (whenSelected_next _ _ _ _).2 ⟨(inSession_iff _ _).2 ⟨ho, hv⟩, rfl⟩, fun s b body hv => ?_⟩
  have hsame : setCursor 0 (scanBytes p2Byte body (p2PacketStart s)) =
      setCursor 0 (scanBytes p2Byte (body.filter (fun x => x != 0xFF)) (p2PacketStart s)) :=
    (scanBytes_p2_runs _ _).eq_of_sameStream (scanBytes_p2_runs _ _) ((SameStream.refl _).withoutFiller body)
  have haccepted : accept (receive (b :: body) s) = accept (receive (b :: body.filter (fun x => x != 0xFF)) s) := by
    rw [accept_receive_p2 _ hv, accept_receive_p2 _ hv, List.drop_one, List.drop_one, List.tail_cons, List.tail_cons,
      hsame]
  change execRxPacket _ s = execRxPacket _ s
  rw [execRxPacket, execRxPacket, haccepted]

/-! ### A message of three bytes -/

/-- One byte of a packet: its step, and the cursor moved past it (10_state.md R22). -/
def p2Feed (b : Byte) (s : State) : State := setCursor (s.cursor + 1) (p2Byte b s)

/-- A marker and the index of a valid port select the port, with an empty buffer (R167, R169). -/
theorem feed_portSelection (hst : s.p2State = .waitMarker) (hp : p.val < s.nIn.val)
    (hu : p2Feed (portByte p) (p2Feed 0xF5 s) = u) :
    u.p2State = .data ∧ u.selectedPort = some p ∧ u.ia[p].length = 0 ∧ u.lenTable = s.lenTable ∧
      u.events = s.events := by
  have hmarker : p2Byte 0xF5 s = p2WaitMarker s := by
    have hb : ¬ (0xF5 : Byte) = filler := by decide
    rw [p2Byte, if_neg hb, hst]
    exact if_pos rfl
  have hindex (n : Nat) :
      p2Byte (portByte p) (setCursor n (p2WaitMarker s)) = p2SelectValid p (setCursor n (p2WaitMarker s)) := by
    have hb : ∀ q : Port, portByte q ≠ filler := by decide
    have hvalid : validPort (setCursor n (p2WaitMarker s)).nIn (portByte p) = some p :=
      validPort_portByte s.nIn p hp
    have hstate : (setCursor n (p2WaitMarker s)).p2State = .portSelect := rfl
    rw [p2Byte, if_neg (hb p), hstate, hvalid]
  rw [← hu, p2Feed, p2Feed, hmarker, hindex]
  exact ⟨rfl, rfl, congrArg InRec.length (modIn_self p InRec.clear s), rfl, rfl⟩

/-- FixedLen awaits a message of `total` bytes for port `p` and holds these first ones. -/
structure Awaiting (p : Port) (total : Nat) (message : List Byte) (s : State) : Prop where
  p2State : s.p2State = .fixedLen
  selectedPort : s.selectedPort = some p
  bytesRemaining : s.ia[p].bytesRemaining = total
  length : s.ia[p].length = message.length
  bytes : s.ia[p].bytes = message

/-- A buffer that is too short for its message leaves FixedLen awaiting the rest. -/
theorem awaiting_checked {r : InRec} {message : List Byte} (hlen : r.length = message.length)
    (hbytes : r.bytes = message) (hshort : message.length < r.bytesRemaining) (n : Nat) (s : State) :
    Awaiting p r.bytesRemaining message (setCursor n ((r.checked p).apply p s)) ∧
      (setCursor n ((r.checked p).apply p s)).events = s.events := by
  have hrecord : (setCursor n ((r.waiting .fixedLen p).apply p s)).ia[p] = r := P2Effect.apply_record _ p s
  rw [InRec.checked_short (hlen.trans_lt hshort)]
  refine ⟨⟨rfl, rfl, ?_, ?_, ?_⟩, List.append_nil _⟩ <;> rw [hrecord]
  · exact hlen
  · exact hbytes

/-- A status byte in Data of a message of more than one byte (R170, R173). -/
theorem feed_status {b : Byte} {total : Nat} (hst : s.p2State = .data) (hp : s.selectedPort = some p)
    (hlen : s.ia[p].length = 0) (hm : b ≠ 0xF5) (htotal : lengthOf s.lenTable b = .fixed total) (hmore : 1 < total)
    (hu : p2Feed b s = u) : Awaiting p total [b] u ∧ u.events = s.events := by
  have hstatus : isStatus b = true := by
    by_contra hdata
    have hlt : b.toNat < 0x80 := (isData_iff b).1 (by simpa using hdata)
    cases (lengthOf_data _ b hlt).symm.trans htotal
  have hfill : b ≠ filler := by rintro rfl; cases (lengthOf_ff _).symm.trans htotal
  have hx : b ≠ 0xF0 := by rintro rfl; cases (lengthOf_sysex _).symm.trans htotal
  have hrow : p2Byte b s = p2DataStatus b p s := by
    rw [p2Byte, if_neg hfill, hst]
    simp only [hstatus, if_true, withSelected, hp]
  have hempty : (s.ia[p].withCommand b).length = 0 := hlen
  have hone : ((s.ia[p].withCommand b).push b).length = 1 := congrArg (· + 1) hlen
  have hbytes : ((s.ia[p].withCommand b).push b).bytes = [b] := InRec.push_bytes_of_empty b hempty
  rw [← hu, p2Feed, hrow, p2DataStatus_eq b hp, InRec.appendEffect_room _ _ _ (by rw [hempty]; decide),
    InRec.classified_message (r := (s.ia[p].withCommand b).push b) hm hx, InRec.push_lastCommand,
    InRec.withCommand_lastCommand, awaitedLength_fixed htotal]
  exact awaiting_checked (r := ((s.ia[p].withCommand b).push b).withRemaining total) (message := [b]) hone hbytes hmore
    _ s

/-- A byte in FixedLen other than filler is appended, and the buffer checked. -/
theorem p2Byte_awaiting {total : Nat} {message : List Byte} {b : Byte} (h : Awaiting p total message s)
    (hb : b ≠ 0xFF) (hroom : message.length < 64) :
    p2Byte b s = ((s.ia[p].push b).checked p).apply p s ∧ (s.ia[p].push b).bytes = message ++ [b] := by
  obtain ⟨hst, hp, _, hlen, hbytes⟩ := h
  have hlt : s.ia[p].length < 64 := hlen ▸ hroom
  have hrow : p2Byte b s = p2FixedByte b p s := by
    rw [p2Byte, if_neg hb, hst]
    simp only [withSelected, hp]
  rw [hrow, p2FixedByte_eq b hst hp, InRec.appendEffect_room _ _ _ hlt.ne, InRec.push_bytes _ b hlt, hbytes]
  exact ⟨rfl, rfl⟩

/-- A byte that does not complete the message (R174). -/
theorem Awaiting.feed_next {total : Nat} {message : List Byte} {b : Byte} (h : Awaiting p total message s)
    (hb : b ≠ 0xFF) (hroom : message.length < 64) (hmore : message.length + 1 < total) (hu : p2Feed b s = u) :
    Awaiting p total (message ++ [b]) u ∧ u.events = s.events := by
  obtain ⟨hstep, hbytes⟩ := p2Byte_awaiting h hb hroom
  obtain ⟨_, _, hremaining, hlen, _⟩ := h
  have hsum : (message ++ [b]).length = message.length + 1 := List.length_append
  have hlen' : (s.ia[p].push b).length = (message ++ [b]).length :=
    (congrArg (· + 1) hlen).trans hsum.symm
  subst hremaining
  rw [← hu, p2Feed, hstep]
  exact awaiting_checked hlen' hbytes (hsum.trans_lt hmore) _ s

/-- The byte that completes the message (R174, R176). -/
theorem Awaiting.feed_last {total : Nat} {message : List Byte} {b : Byte} (h : Awaiting p total message s)
    (hb : b ≠ 0xFF) (hroom : message.length < 64) (hlast : total ≤ message.length + 1) (hu : p2Feed b s = u) :
    u.p2State = .data ∧ u.selectedPort = some p ∧ u.events = s.events ++ [.deliver p (message ++ [b])] := by
  obtain ⟨hstep, hbytes⟩ := p2Byte_awaiting h hb hroom
  obtain ⟨_, _, hremaining, hlen, _⟩ := h
  have hcomplete : (s.ia[p].push b).bytesRemaining ≤ (s.ia[p].push b).length := by
    rw [InRec.push_bytesRemaining, InRec.push_length, hremaining, hlen]
    exact hlast
  rw [← hu, p2Feed, hstep, InRec.checked_complete hcomplete, ← hbytes]
  exact ⟨rfl, rfl, rfl⟩

/-- Settles O34: the marker and the index select the port, the status byte opens the message, and its two data bytes
complete it. -/
theorem threeByteMessageIsDelivered : Obligations.ThreeByteMessageIsDelivered := by
  intro s p b0 b d1 d2 ho hv hr hst hp htotal hm hd1 hd2
  have hexec := exec_rxPacket [b0, 0xF5, portByte p, b, d1, d2] ho hr
  rw [accept_receive_p2 _ hv] at hexec
  change _ = Host.Outcome.next (accept (rearm (setCursor 0
    (p2Feed d2 (p2Feed d1 (p2Feed b (p2Feed (portByte p) (p2Feed 0xF5 (p2PacketStart s))))))))) at hexec
  generalize hselect : p2Feed (portByte p) (p2Feed 0xF5 (p2PacketStart s)) = s2 at hexec
  generalize hstatus : p2Feed b s2 = s3 at hexec
  generalize hfirst : p2Feed d1 s3 = s4 at hexec
  generalize hsecond : p2Feed d2 s4 = s5 at hexec
  obtain ⟨hdata, hport, hempty, htable, hevents2⟩ := feed_portSelection (s := p2PacketStart s) hst hp hselect
  obtain ⟨hawait3, hevents3⟩ := feed_status hdata hport hempty hm (htable ▸ htotal) (by decide) hstatus
  obtain ⟨hawait4, hevents4⟩ := hawait3.feed_next hd1 (by simp) (by simp) hfirst
  obtain ⟨hdata5, hport5, hevents5⟩ := hawait4.feed_last hd2 (by simp) (by simp) hsecond
  have hevents : s5.events = s.events ++ [.deliver p [b, d1, d2]] := by
    rw [hevents5, hevents4, hevents3, hevents2]
    rfl
  refine ⟨_, hexec, ?_, hdata5, hport5⟩
  change s5.events ++ [.rxRearm] = _
  rw [hevents, List.append_assoc]
  rfl

end Sys2Proof.Machine
end

section
/-! PROOFS. The P2 output FIFO (44_p2_fifo.md R190 to R199). PushClassify writes the span and the sendable length alone
(`PushCase.frame`), so that a pushed byte stands behind the queued ones and the sendable bytes stay at the head. A full FIFO
with nothing sendable admits no action at all (`FifoAct.not_of_wedged`). -/

namespace Sys2Proof.Machine

variable {W : Prop} {s t : State} {q : Port} {b : Byte} {classify : OutFifo → OutFifo}

/-! ### What PushClassify writes (R192 to R197) -/

/-- No case of PushClassify writes the buffer, the cursors, the length or the last command. -/
theorem PushCase.frame (h : PushCase classify) (f : OutFifo) :
    classify f = { f with
      sendableLength := (classify f).sendableLength
      commandSpanLength := (classify f).commandSpanLength
      remaining := (classify f).remaining } := by
  cases h with
  | sysex | sysexEnd | notACommand | dataNospan => rfl
  | status n => unfold OutFifo.pushedStatus; split <;> rfl
  | dataSpan => unfold OutFifo.pushedDataSpan; split <;> rfl

theorem PushCase.rd (h : PushCase classify) (f : OutFifo) : (classify f).rd = f.rd := by rw [h.frame f]

theorem PushCase.lastCommand (h : PushCase classify) (f : OutFifo) : (classify f).lastCommand = f.lastCommand := by
  rw [h.frame f]

theorem PushCase.queued (h : PushCase classify) (f : OutFifo) : (classify f).queued = f.queued := by
  rw [h.frame f]; rfl

/-- A case of PushClassify makes everything queued sendable, or nothing more than before. -/
theorem PushCase.sendableLength (h : PushCase classify) (f : OutFifo) :
    (classify f).sendableLength = f.length ∨ (classify f).sendableLength = f.sendableLength := by
  cases h with
  | sysex | dataNospan => exact .inr rfl
  | sysexEnd | notACommand => exact .inl rfl
  | status n =>
    unfold OutFifo.pushedStatus
    split
    · exact .inl rfl
    · exact .inr rfl
  | dataSpan =>
    unfold OutFifo.pushedDataSpan
    split
    · exact .inl rfl
    · exact .inr rfl

@[simp] theorem OutFifo.pushedStatus_commandSpanLength (n : Nat) (f : OutFifo) :
    (f.pushedStatus n).commandSpanLength = n := by
  unfold OutFifo.pushedStatus; split <;> rfl

@[simp] theorem OutFifo.pushedStatus_remaining (n : Nat) (f : OutFifo) : (f.pushedStatus n).remaining = n := by
  unfold OutFifo.pushedStatus; split <;> rfl

@[simp] theorem OutFifo.pushedStatus_sendableLength (n : Nat) (f : OutFifo) :
    (f.pushedStatus n).sendableLength = if n = 0 then f.length else f.sendableLength := by
  unfold OutFifo.pushedStatus; split <;> rfl

@[simp] theorem OutFifo.pushedDataSpan_commandSpanLength (f : OutFifo) :
    f.pushedDataSpan.commandSpanLength = f.commandSpanLength := by
  unfold OutFifo.pushedDataSpan; split <;> rfl

@[simp] theorem OutFifo.pushedDataSpan_remaining (f : OutFifo) : f.pushedDataSpan.remaining = f.reloaded - 1 := by
  unfold OutFifo.pushedDataSpan
  split
  · rename_i h; exact h.symm
  · rfl

@[simp] theorem OutFifo.pushedDataSpan_sendableLength (f : OutFifo) :
    f.pushedDataSpan.sendableLength = if f.reloaded - 1 = 0 then f.length else f.sendableLength := by
  unfold OutFifo.pushedDataSpan; split <;> rfl

/-! ### A byte pushed to a FIFO with room -/

/-- `t` is `s` after the byte `b` was pushed to output port `q` and classified: only that FIFO is written, and of it
neither the read cursor nor the last command. -/
structure Pushed (q : Port) (b : Byte) (classify : OutFifo → OutFifo) (s t : State) : Prop where
  only : OnlyFifo q s t
  fifo : t.fifo[q] = classify (s.fifo[q].write b)
  queued : t.fifo[q].queued = s.fifo[q].queued ++ [b]
  rd : t.fifo[q].rd = s.fifo[q].rd
  lastCommand : t.fifo[q].lastCommand = s.fifo[q].lastCommand

/-- A written and classified byte stands behind the queued ones (20_memory.md R64). -/
theorem PushCase.write_queued (hcase : PushCase classify) (f : OutFifo) (b : Byte) (hok : f.ok = true)
    (hroom : f.length ≠ cap) : (classify (f.write b)).queued = f.queued ++ [b] := by
  obtain ⟨_, hlen, _, hwr, _⟩ := (OutFifo.ok_iff f).1 hok
  rw [hcase.queued, f.write_queued b (lt_of_le_of_ne hlen hroom) hwr]

theorem pushOne_pushed (hcase : PushCase classify) (hs : Pushable q s) :
    Pushed q b classify s (pushOne q b classify s) := by
  obtain ⟨_, _, _, hok, hroom⟩ := hs
  have hpush : pushOne q b classify s = modFifo q (fun f => classify (f.write b)) s :=
    if_neg (by simpa only [OutFifo.full, beq_iff_eq] using hroom.ne)
  have hfifo : (modFifo q (fun f => classify (f.write b)) s).fifo[q] = classify (s.fifo[q].write b) := modFifo_self ..
  rw [hpush]
  exact {
    only := ⟨rfl, fun q' hq' => modFifo_ne q q' _ s hq'⟩
    fifo := hfifo
    queued := hfifo ▸ hcase.write_queued _ b hok hroom.ne
    rd := hfifo ▸ hcase.rd _
    lastCommand := hfifo ▸ hcase.lastCommand _ }

/-- A row of `FIFO.push` on a FIFO with room. -/
theorem pushRow_pushed {row : String} {cond : Bool} (hcase : PushCase classify) (hs : Pushable q s)
    (hcond : cond = true) :
    ∃ t, whenSelected row cond (pushOne q b classify s) = .next t ∧ Pushed q b classify s t :=
  ⟨_, (whenSelected_next _ _ _ _).2 ⟨hcond, rfl⟩, pushOne_pushed hcase hs⟩

theorem Pushable.inFifoPush (hs : Pushable q s) : inFifoPush q s = true := by
  obtain ⟨ho, hv, hq, _, _⟩ := hs
  simp [Machine.inFifoPush, inSession, ho, hv, hq]

/-! ### The rows -/

/-- Settles O36: `F0` only clears the span of the written record, and `F7` also marks its whole length. -/
theorem sysexSpanBecomesSendableAtItsEnd : Obligations.SysexSpanBecomesSendableAtItsEnd := by
  intro s q hs
  constructor
  · obtain ⟨t, hexec, hp⟩ := pushRow_pushed .sysex hs hs.inFifoPush
    refine ⟨t, hexec, hp.only, hp.queued, ?_, hp.rd, hp.lastCommand, ?_, ?_⟩ <;> rw [hp.fifo] <;> rfl
  · obtain ⟨t, hexec, hp⟩ := pushRow_pushed .sysexEnd hs hs.inFifoPush
    refine ⟨t, hexec, hp.only, hp.queued, ?_, hp.rd, hp.lastCommand, ?_, ?_⟩ <;> rw [hp.fifo] <;> rfl

/-- Settles O37: the span and the countdown are the data bytes that the length table announces. -/
theorem statusByteOpensASpan : Obligations.StatusByteOpensASpan := by
  intro s q b total hs
  constructor
  · intro _ htotal
    obtain ⟨t, hexec, hp⟩ := pushRow_pushed (b := b) (.status (dataBytesOf (lengthOf s.lenTable b))) hs hs.inFifoPush
    rw [htotal] at hp
    refine ⟨t, hexec, hp.only, hp.queued, ?_, ?_, hp.rd, hp.lastCommand, ?_⟩ <;> rw [hp.fifo]
    · exact OutFifo.pushedStatus_commandSpanLength _ _
    · exact OutFifo.pushedStatus_remaining _ _
    · exact OutFifo.pushedStatus_sendableLength _ _
  · obtain ⟨t, hexec, hp⟩ := pushRow_pushed .notACommand hs hs.inFifoPush
    refine ⟨t, hexec, hp.only, hp.queued, ?_, ?_, hp.rd, hp.lastCommand, ?_⟩ <;> rw [hp.fifo] <;> rfl

/-- Settles O38: inside a span the countdown is the reloaded one less 1; outside, the write is all. -/
theorem dataByteIsCountedInItsSpan : Obligations.DataByteIsCountedInItsSpan := by
  intro s q b hs
  constructor
  · intro hspan
    obtain ⟨t, hexec, hp⟩ := pushRow_pushed (b := b) .dataSpan hs
      (Bool.and_eq_true_iff.2 ⟨hs.inFifoPush, decide_eq_true hspan⟩)
    refine ⟨t, _, hexec, hp.only, hp.queued, rfl, ?_, ?_, hp.rd, hp.lastCommand, ?_⟩ <;> rw [hp.fifo]
    · exact OutFifo.pushedDataSpan_remaining _
    · exact OutFifo.pushedDataSpan_commandSpanLength _
    · exact OutFifo.pushedDataSpan_sendableLength _
  · intro hspan
    obtain ⟨t, hexec, hp⟩ := pushRow_pushed (b := b) .dataNospan hs
      (Bool.and_eq_true_iff.2 ⟨hs.inFifoPush, beq_iff_eq.2 hspan⟩)
    refine ⟨t, hexec, hp.only, hp.queued, ?_, ?_, hp.rd, hp.lastCommand, ?_⟩ <;> rw [hp.fifo]
    · rfl
    · exact hspan
    · rfl

/-! ### A full FIFO (R190, R199) -/

/-- Settles O39: the first byte finds the FIFO full and ends the call, and each row is the push of its byte. -/
theorem fullFifoDropsTheRestOfThePush : Obligations.FullFifoDropsTheRestOfThePush := by
  intro s q b bytes hfull
  have hdrop (rest : List Byte) :
      fifoPush q (b :: rest) s = { s with events := s.events ++ [.report 3 (BitVec.ofNat 8 q.val)] } := by
    rcases fifoPush_cons q b rest s with ⟨_, h⟩ | ⟨hroom, _⟩
    · exact h
    · exact absurd hfull hroom
  refine ⟨hdrop bytes, fun i ⟨ho, hv, hq⟩ hdec => ?_⟩
  rw [everyByteStepRunsItsRow.2 s q b i ho hv hq hdec, hdrop []]

/-- A full FIFO takes no byte, and one with nothing sendable gives none. -/
theorem FifoAct.not_of_wedged {f f' : OutFifo} (hfull : f.length = cap) (hnone : f.sendableLength = 0) :
    ¬ FifoAct f f' := by
  intro h
  cases h with
  | push _ _ _ hroom => exact hroom hfull
  | send hsend => exact hsend.ne' hnone

theorem Act.fifo_of_wedged {c : SessionConfig} (h : Act c W s t) (hw : Wedged q s) : t.fifo[q] = s.fifo[q] := by
  obtain ⟨hfull, hnone⟩ := hw
  cases h with
  | aside _ h => rw [h.fifo]
  | scan | input | deliver | lastOutputPort | seq => rfl
  | p2Row _ _ h => rw [h.fifo]
  | fifo q' f _ _ hf =>
    have hne : q ≠ q' := by
      rintro rfl
      exact FifoAct.not_of_wedged hfull hnone hf
    exact modFifo_ne q' q f s hne

/-- Settles O42: no action of a session writes a wedged FIFO, and every instruction but RESET is a chain of them. -/
theorem onlyResetClearsAWedgedFifo : Obligations.OnlyResetClearsAWedgedFifo := by
  intro i s t q hw hi hexec
  have hstep (x y : State) (hxy : Act (configOf s) False x y) (hx : x.fifo[q] = s.fifo[q]) : y.fifo[q] = s.fifo[q] :=
    (hxy.fifo_of_wedged (by rwa [Wedged, hx])).trans hx
  have hkept : t.fifo[q] = s.fifo[q] := chain_keeps (fun x => x.fifo[q] = s.fifo[q]) hstep
    (exec_acts i hi False.elim hexec) rfl
  exact ⟨by rwa [Wedged, hkept], hkept⟩

/-! ### The sendable bytes (R198) -/

/-- A write and its classification keep the sendable bytes at the head. -/
theorem PushCase.sendable_prefix (hcase : PushCase classify) (f : OutFifo) (b : Byte) (hok : f.ok = true)
    (hroom : f.length ≠ cap) : f.sendable <+: (classify (f.write b)).sendable := by
  obtain ⟨hold, _⟩ := (OutFifo.ok_iff f).1 hok
  obtain ⟨hnew, _⟩ := (OutFifo.ok_iff _).1 (hcase.ok _ (f.write_ok b hroom hok))
  have hgrow : f.sendableLength ≤ (classify (f.write b)).sendableLength := by
    rcases hcase.sendableLength (f.write b) with h | h
    · rw [h]; exact Nat.le_succ_of_le hold
    · rw [h]; exact le_rfl
  rw [OutFifo.sendable_eq_take f hold, OutFifo.sendable_eq_take _ hnew, hcase.write_queued f b hok hroom]
  calc
    f.queued.take f.sendableLength <+: (f.queued ++ [b]).take f.sendableLength :=
      (List.prefix_append _ _).take _
    _ <+: (f.queued ++ [b]).take (classify (f.write b)).sendableLength := List.take_prefix_take_left hgrow

/-- Settles O40: every pushed byte keeps R31 and the sendable bytes at the head, and an overflow writes no FIFO. -/
theorem pushKeepsTheSendableBytes : Obligations.PushKeepsTheSendableBytes := by
  intro s q bytes hok
  have hkept : (fifoPush q bytes s).fifo[q].ok = true ∧
      s.fifo[q].sendable <+: (fifoPush q bytes s).fifo[q].sendable := by
    refine fifoPush_keeps (fun t => t.fifo[q].ok = true ∧ s.fifo[q].sendable <+: t.fifo[q].sendable) q
      (fun t ht => ht) (fun b t ⟨htok, hpre⟩ hroom => ?_) bytes s ⟨hok, List.prefix_rfl⟩
    obtain ⟨classify, hcase, h⟩ := OutFifo.pushClassify_case t.lenTable b (t.fifo[q].write b)
    rw [modFifo_self, h]
    exact ⟨hcase.ok _ (OutFifo.write_ok _ b hroom htok), hpre.trans (hcase.sendable_prefix _ b htok hroom)⟩
  obtain ⟨_, more, hmore⟩ := hkept
  exact ⟨more, hmore.symm⟩

end Sys2Proof.Machine
end

section
/-! PROOFS. The rows of `P2.out`: what each shared action of the packer makes of the state, once, and each row as its
action where its conditions hold (45_p2_encoder.md R207, R209, R211 to R215). -/

namespace Sys2Proof.Machine

variable {s : State} {q : Port} {b : Byte}

/-! ### The visit order (R209) -/

theorem visitOrder_getElem_val (s : State) (k : Nat) (h : k < (visitOrder s).length) :
    ((visitOrder s)[k]).val = (visitStart s + k) % s.nOut.val := by
  have hn : s.nOut.val ≤ 9 := Nat.lt_succ_iff.1 s.nOut.isLt
  have hk : k < s.nOut.val := by simpa [visitOrder] using h
  have hlt : (visitStart s + k) % s.nOut.val < s.nOut.val := Nat.mod_lt _ (by omega)
  simp only [visitOrder, List.getElem_map, List.getElem_range, Fin.ofNat]
  exact Nat.mod_eq_of_lt (lt_of_lt_of_le hlt hn)

/-- Fewer than `N_OUT` steps around the cycle of ports never come back to one. -/
theorem visitOrder_nodup (s : State) : (visitOrder s).Nodup := by
  refine List.nodup_iff_injective_get.2 fun i j hij => Fin.ext ?_
  have hval : (visitStart s + i.val) % s.nOut.val = (visitStart s + j.val) % s.nOut.val := by
    rw [← visitOrder_getElem_val s i.val i.isLt, ← visitOrder_getElem_val s j.val j.isLt]
    exact congrArg Fin.val hij
  have hlt (k : Fin (visitOrder s).length) : k.val < s.nOut.val := by simpa [visitOrder] using k.isLt
  exact (Nat.ModEq.add_left_cancel' _ hval).eq_of_lt_of_lt (hlt i) (hlt j)

/-- Settles O43: the k-th port is k steps around the cycle (`visitOrder_getElem_val`), so that none comes twice. -/
theorem visitOrderIsCyclic : Obligations.VisitOrderIsCyclic := fun s =>
  ⟨visitOrder_nodup s, by simp [visitOrder], fun q => ⟨mem_visitOrder_lt s q, mem_visitOrder s q⟩,
    visitOrder_getElem_val s⟩

/-! ### The actions of the packer (R207, R211 to R214) -/

/-- One slot byte, and what the packer's position in a switch owes after it. -/
theorem setDue_emitSlot (d : P2Due) (b : Byte) (s : State) :
    setDue d (emitSlot b s) = { s with enc := if s.enc.k = 11 then
        { s.enc with out := s.enc.out ++ [b, 0x01, 0x00], k := 0, groups := s.enc.groups + 1, due := d }
      else { s.enc with out := s.enc.out ++ [b], k := s.enc.k + 1, due := d } } := by
  rw [emitSlot_eq]
  split <;> rfl

theorem emitMarker_eq (hk : s.enc.k < 11) :
    emitMarker q s = { s with
      enc := { s.enc with out := s.enc.out ++ [0xF5], k := s.enc.k + 1, due := .index q } } := by
  rw [emitMarker, setDue_emitSlot, if_neg hk.ne]

theorem emitSwitchPort_eq (hk : s.enc.k < 11) :
    emitSwitchPort q s = { s with
      enc := { s.enc with out := s.enc.out ++ [portByte q], k := s.enc.k + 1, due := .priming }
      lastOutputPort := some q } := by
  rw [emitSwitchPort, emitSlot_eq, if_neg hk.ne]
  rfl

theorem emitFifoByte_eq (q : Port) (s : State) :
    emitFifoByte q s = { s with
      fifo := s.fifo.set q s.fifo[q].sent
      enc := if s.enc.k = 11 then
          { s.enc with
            out := s.enc.out ++ [s.fifo[q].peek, 0x01, 0x00], k := 0, groups := s.enc.groups + 1, due := .slot }
        else { s.enc with out := s.enc.out ++ [s.fifo[q].peek], k := s.enc.k + 1, due := .slot } } :=
  setDue_emitSlot .slot _ _

/-! ### The rows' conditions -/

theorem Packing.inP2Out (h : Packing s) : inP2Out s = true := by
  obtain ⟨ho, hv, ha, hg⟩ := h
  simp [Machine.inP2Out, inSession, ho, hv, ha, hg]

theorem switchDue_eq_true (hsend : hasSendable q s = true) (hlast : s.lastOutputPort ≠ some q) :
    switchDue q s = true := by
  simp [switchDue, hsend, hlast]

theorem primeDue_eq_true_iff (f : OutFifo) :
    primeDue f = true ↔ f.peek.getLsbD 7 = false ∧ f.lastCommand ≠ 0x00 := by
  simp [primeDue, isData]

/-! ### The rows of a switch (R211, R212) -/

theorem exec_p2outMarker (hp : Packing s) (hsend : hasSendable q s = true) (hlast : s.lastOutputPort ≠ some q)
    (hdue : s.enc.due = .slot) (hk : s.enc.k < 10) :
    exec (.p2outMarker q) s = .next { s with
      enc := { s.enc with out := s.enc.out ++ [0xF5], k := s.enc.k + 1, due := .index q } } := by
  refine (whenSelected_next _ _ _ _).2 ⟨?_, (emitMarker_eq (by omega)).symm⟩
  simp [hp.inP2Out, hdue, switchDue_eq_true hsend hlast, hk]

theorem exec_p2outPort (hp : Packing s) (hsend : hasSendable q s = true) (hlast : s.lastOutputPort ≠ some q)
    (hdue : s.enc.due = .index q) (hk : s.enc.k ≤ 10) :
    exec (.p2outPort q) s = .next { s with
      enc := { s.enc with out := s.enc.out ++ [BitVec.ofNat 8 q.val], k := s.enc.k + 1, due := .priming }
      lastOutputPort := some q } := by
  refine (whenSelected_next _ _ _ _).2 ⟨?_, (emitSwitchPort_eq (by omega)).symm⟩
  simp [hp.inP2Out, hdue, switchDue_eq_true hsend hlast, hk]

/-- The two marker rows, one after the other. -/
theorem exec_marker_then_port (hp : Packing s) (hsend : hasSendable q s = true) (hlast : s.lastOutputPort ≠ some q)
    (hdue : s.enc.due = .slot) (hk : s.enc.k < 10) :
    ∃ t, exec (.p2outMarker q) s = .next t ∧
      exec (.p2outPort q) t = .next { s with
        enc := { s.enc with out := s.enc.out ++ [0xF5, BitVec.ofNat 8 q.val], k := s.enc.k + 2, due := .priming }
        lastOutputPort := some q } := by
  refine ⟨_, exec_p2outMarker hp hsend hlast hdue hk,
    Eq.trans (exec_p2outPort hp hsend hlast rfl (Nat.succ_le_of_lt hk)) ?_⟩
  rw [List.append_assoc]
  rfl

/-- Settles O44: neither byte is a twelfth slot byte. -/
theorem switchMarkerNamesThePort : Obligations.SwitchMarkerNamesThePort := fun _ _ hp hsend hlast =>
  ⟨exec_p2outMarker hp hsend hlast, exec_p2outPort hp hsend hlast, exec_marker_then_port hp hsend hlast⟩

theorem exec_p2outPrime (hp : Packing s) (hsend : hasSendable q s = true) (hlast : s.lastOutputPort = some q)
    (hdue : s.enc.due = .priming) (hk : s.enc.k < 12) (hdata : s.fifo[q].peek.getLsbD 7 = false)
    (hknown : s.fifo[q].lastCommand ≠ 0x00) :
    exec (.p2outPrime s.fifo[q].lastCommand) s = .next (setDue .slot (emitSlot s.fifo[q].lastCommand s)) := by
  have hprime : primeDue s.fifo[q] = true := (primeDue_eq_true_iff _).2 ⟨hdata, hknown⟩
  change execP2outPrime _ s = _
  rw [execP2outPrime, hlast]
  refine (whenSelected_next _ _ _ _).2 ⟨?_, rfl⟩
  simp [-Fin.getElem_fin, hp.inP2Out, hdue, hsend, hprime, hk]

/-- The priming row is selected right after a marker alone (assumption 13). -/
theorem exec_p2outPrime_refused (b : Byte) (hdue : s.enc.due ≠ .priming) :
    exec (.p2outPrime b) s = .refused (.rowNotSelected "P2OUT.PRIME") := by
  change execP2outPrime b s = _
  unfold execP2outPrime
  split
  · rfl
  · exact if_neg (by simp [hdue])

/-- Settles O45: the priming byte is one slot byte, behind a marker that ends below the last slot. -/
theorem primingByteRestoresTheStatus : Obligations.PrimingByteRestoresTheStatus := by
  refine ⟨fun s q hp hsend hlast hdue hk hdata hknown => ?_, fun s q hp hsend hlast hdue hk hdata hknown => ?_,
    fun s b => exec_p2outPrime_refused b⟩
  · rw [exec_p2outPrime hp hsend hlast hdue hk hdata hknown, setDue_emitSlot]
  · obtain ⟨t, hmarker, hport⟩ := exec_marker_then_port hp hsend hlast hdue hk
    refine ⟨t, _, hmarker, hport, ?_⟩
    have hprime := exec_p2outPrime (q := q) (s := { s with
      enc := { s.enc with out := s.enc.out ++ [0xF5, BitVec.ofNat 8 q.val], k := s.enc.k + 2, due := .priming }
      lastOutputPort := some q }) hp hsend rfl rfl (by dsimp only; omega) hdata hknown
    rw [setDue_emitSlot] at hprime
    rw [hprime, ← hdue]
    by_cases h9 : s.enc.k = 9
    · simp [-Fin.getElem_fin, h9]
    · simp [-Fin.getElem_fin, h9]

/-! ### The FIFO byte (R214) -/

/-- The head byte is popped, and as a status byte it becomes the last command. -/
theorem OutFifo.sent_eq (f : OutFifo) :
    f.sent = { f.pop with lastCommand := if f.peek.getLsbD 7 then f.peek else f.lastCommand } := by
  unfold OutFifo.sent isStatus
  split <;> rfl

theorem OutFifo.sent_queued (f : OutFifo) (hl : 0 < f.length) (hr : f.rd < cap) :
    f.queued = f.peek :: f.sent.queued := by
  rw [f.pop_queued hl hr, f.sent_eq]
  rfl

/-- Settles O46: the head byte of the queue is `peek`, and `sent` leaves the others. -/
theorem fifoByteIsSentInOrder : Obligations.FifoByteIsSentInOrder := by
  intro s q b rest hp hsend hok hlast hk hdue hqueue
  obtain ⟨_, hpos⟩ := of_hasSendable hsend
  obtain ⟨hle, _, hrd, _⟩ := (OutFifo.ok_iff _).1 hok
  have hsent := s.fifo[q].sent_queued (hpos.trans_le hle) hrd
  rw [hqueue, List.cons.injEq] at hsent
  obtain ⟨rfl, rfl⟩ := hsent
  have hnext : fifoByteNext q s = true := by
    rcases hdue with h | ⟨h, hstatus | hnone⟩
    · simp [fifoByteNext, h]
    · simp [-Fin.getElem_fin, fifoByteNext, h, primeDue, isData, hstatus]
    · simp [-Fin.getElem_fin, fifoByteNext, h, primeDue, hnone]
  have hexec : exec (.p2outFifo s.fifo[q].peek) s = .next (emitFifoByte q s) := by
    change execP2outFifo _ s = _
    rw [execP2outFifo, hlast]
    refine (whenSelected_next _ _ _ _).2 ⟨?_, rfl⟩
    simp [-Fin.getElem_fin, hp.inP2Out, hnext, hsend, hk]
  have hfifo : (emitFifoByte q s).fifo[q] = s.fifo[q].sent := by
    rw [emitFifoByte_fifo, modFifo_self]
  refine ⟨_, hexec, ?_, fun q' hq' => ?_, ?_, ?_, ?_, ?_, ?_, ?_⟩
  · rw [emitFifoByte_eq]
  · rw [emitFifoByte_fifo, modFifo_ne q q' _ s hq']
  · rw [hfifo]
  · rw [hfifo, OutFifo.sent_sendableLength]
  · rw [hfifo, OutFifo.sent_eq]
  · rw [hfifo, OutFifo.sent_eq]; rfl
  · rw [hfifo, OutFifo.sent_eq]; rfl
  · rw [emitFifoByte_eq]

/-! ### Padding (R213, R215) -/

/-- Settles O47: both rows pad an open group (`padGroup_eq`), and the trailer row closes a full one. -/
theorem paddingClosesTheGroup : Obligations.PaddingClosesTheGroup := by
  intro s hp
  refine ⟨fun hdue h10 h12 ⟨q, hsend, hlast⟩ => ?_, fun hdue h0 h12 hnone => ?_, fun hk => ?_⟩
  · have hswitch : allPorts.any (fun q => switchDue q s) = true :=
      List.any_eq_true.2 ⟨q, mem_allPorts q, switchDue_eq_true hsend hlast⟩
    refine (whenSelected_next _ _ _ _).2 ⟨?_, (padGroup_eq s (by omega) h12).symm⟩
    simp only [hp.inP2Out, hdue, h10, h12, hswitch, beq_self_eq_true, decide_true, Bool.and_self]
  · have hidle : allPorts.all (fun q => !hasSendable q s) = true :=
      List.all_eq_true.2 fun q _ => by rw [hnone q]; rfl
    refine (whenSelected_next _ _ _ _).2 ⟨?_, (padGroup_eq s h0 h12).symm⟩
    simp only [hp.inP2Out, hdue, h0, h12, hidle, beq_self_eq_true, decide_true, Bool.and_self]
  · refine (whenSelected_next _ _ _ _).2 ⟨?_, rfl⟩
    simp [hp.inP2Out, hk]

end Sys2Proof.Machine
end

section
/-! PROOFS. An encoder invocation of P2 neither loses nor reorders a queued byte (44_p2_fifo.md R190, R198,
45_p2_encoder.md R216, R219). The pull phase puts what fits behind the queue (`p2Pull_queued`), and every action of the
packer that pops a byte puts it behind the packet (`SentInOrder`). -/

namespace Sys2Proof.Machine

variable {s t u : State} {q : Port} {i : Instr}

/-! ### The invocation -/

/-- The state before the submission of an encoder invocation of P2. -/
def assembled (s : State) : State := pack (p2Pull (setEnc EncState.init (setActive false s)))

theorem exec_encodes_p2 (henc : Encodes i s) (hv : s.variant = .p2) :
    exec i s = .next (accept (setEnc EncState.init (p2Submit (assembled s)))) := by
  rw [exec_of_encodes henc, encodePacket, setActive_variant, hv]
  rfl

@[simp] theorem p2Submit_fifo (s : State) : (p2Submit s).fifo = s.fifo := by
  unfold p2Submit
  split
  · rfl
  · rw [submit_eq]

/-- The events of a submission: none for an empty packet (R216), or the packet and, where it is rejected, the report
(R217). -/
def p2SubmitEvents (s : State) : List Event :=
  if s.enc.out = [] then [] else submitEvents 2 s.enc.out (p2Subframes s.enc.groups) s.env.accept

theorem p2Submit_events (s : State) : (p2Submit s).events = s.events ++ p2SubmitEvents s := by
  unfold p2Submit p2SubmitEvents
  split
  · exact (List.append_nil _).symm
  · rw [submit_eq]

theorem assembled_packedFrom (s : State) :
    PackedFrom (p2Pull (setEnc EncState.init (setActive false s))) (assembled s) := by
  have hpull : (p2Pull (setEnc EncState.init (setActive false s))).enc = EncState.init :=
    foldl_keeps (fun t => t.enc = EncState.init) p2PullPort _ (fun q t _ ht =>
      fifoPush_keeps (fun t => t.enc = EncState.init) q (fun _ h => h) (fun _ _ h _ => h) _ _ ht) _ rfl
  obtain ⟨hpacked, _⟩ := pack_whole hpull
  exact hpacked

/-! ### Nothing sendable (R216) -/

theorem drainPort_of_nothing (h : s.fifo[q].sendableLength = 0) : drainPort q s = s := by
  rw [drainPort, drainLoop, if_pos h]

theorem packStopped_of_nothing (h : s.fifo[q].sendableLength = 0) : packStopped q s = false := by
  rw [packStopped, h]
  simp

/-- Ports without a sendable byte are visited and emit nothing (R209). -/
theorem visitPorts_append_of_nothing (idle ports : List Port) (h : ∀ p ∈ idle, s.fifo[p].sendableLength = 0) :
    visitPorts (idle ++ ports) s = visitPorts ports s := by
  induction idle with
  | nil => rfl
  | cons p idle ih =>
    have hp := h p List.mem_cons_self
    rw [List.cons_append, visitPorts, drainPort_of_nothing hp, packStopped_of_nothing hp]
    exact ih fun p' hp' => h p' (List.mem_cons_of_mem _ hp')

theorem visitPorts_of_nothing (ports : List Port) (h : ∀ p ∈ ports, s.fifo[p].sendableLength = 0) :
    visitPorts ports s = s := by
  rw [← List.append_nil ports, visitPorts_append_of_nothing ports [] h, visitPorts]

theorem pack_of_nothing (hk : s.enc.k = 0) (h : ∀ q : Port, q.val < s.nOut.val → s.fifo[q].sendableLength = 0) :
    pack s = s := by
  rw [pack, visitPorts_of_nothing _ fun p hp => h p (mem_visitOrder_lt s p hp)]
  simp [hk]

/-! ### Silent producers -/

/-- A producer that has nothing pending. -/
theorem pullAnswer_silent {accepted : Bool} (henv : s.env = ⟨Vector.replicate 9 [], accepted⟩) (q : Port) :
    pullAnswer q s = [] := by
  rw [pullAnswer, henv]
  simp

theorem answersLegal_silent {accepted : Bool} (henv : s.env = ⟨Vector.replicate 9 [], accepted⟩) :
    answersLegal s = true := by
  refine List.all_eq_true.2 fun q _ => ?_
  rw [pullAnswer_silent henv q]
  rfl

theorem foldl_p2PullPort_silent {accepted : Bool} (ports : List Port)
    (henv : s.env = ⟨Vector.replicate 9 [], accepted⟩) :
    ports.foldl p2PullPort s =
      { s with events := s.events ++ ports.map fun q => .pull q pullMax s.env.pull[q] } := by
  induction ports generalizing s with
  | nil => simp
  | cons q ports ih =>
    have hturn : p2PullPort s q = emitPull q s := by
      rw [p2PullPort, pullAnswer_silent henv, fifoPush]
    rw [List.foldl_cons, hturn, ih (s := emitPull q s) henv, List.map_cons, ← List.singleton_append, ← List.append_assoc]
    rfl

/-- The pull phase of silent producers asks each port and pushes nothing. -/
theorem p2Pull_silent {accepted : Bool} (henv : s.env = ⟨Vector.replicate 9 [], accepted⟩) :
    p2Pull s = { s with events := s.events ++ pullEvents s } :=
  foldl_p2PullPort_silent (pulledPorts s) henv

/-- What the pull phase of silent producers leaves of a state in which an encoder invocation begins. -/
def pulledSilently (s : State) : State :=
  { s with enc := EncState.init, active := false, events := s.events ++ pullEvents s }

theorem assembled_silent {accepted : Bool} (henv : s.env = ⟨Vector.replicate 9 [], accepted⟩) :
    assembled s = pack (pulledSilently s) := by
  rw [assembled, p2Pull_silent (s := setEnc EncState.init (setActive false s)) henv]
  rfl

/-- Settles O51: the pull phase pushes nothing, no port is drained, and an empty packet is not submitted. -/
theorem nothingSendableSubmitsNothing : Obligations.NothingSendableSubmitsNothing := by
  intro s accepted ho hv ha henv hnone
  have henc : Encodes .txKick s := ⟨ho, answersLegal_silent henv, .inl ⟨rfl, ha⟩⟩
  have hpack : pack (pulledSilently s) = pulledSilently s := pack_of_nothing rfl hnone
  rw [exec_encodes_p2 henc hv, assembled_silent henv, hpack, p2Submit_of_empty rfl, pulledSilently, ← ha]
  rfl

/-! ### The pull phase and the queue (44_p2_fifo.md R190) -/

/-- A push puts as many bytes behind the queue as fit. -/
theorem fifoPush_queued (bytes : List Byte) (hok : s.fifo[q].ok = true) :
    (fifoPush q bytes s).fifo[q].queued = s.fifo[q].queued ++ bytes.take (64 - s.fifo[q].length) := by
  induction bytes generalizing s with
  | nil => simp [fifoPush]
  | cons b bytes ih =>
    rcases fifoPush_cons q b bytes s with ⟨hfull, h⟩ | ⟨hroom, h⟩
    · rw [h, hfull]
      simp
    · obtain ⟨_, hlen, _⟩ := (OutFifo.ok_iff _).1 hok
      obtain ⟨classify, hcase, hclass⟩ := OutFifo.pushClassify_case s.lenTable b (s.fifo[q].write b)
      have hlt : s.fifo[q].length < 64 := lt_of_le_of_ne hlen hroom
      have hfifo : (s.fifo.set q (classify (s.fifo[q].write b)))[q] = classify (s.fifo[q].write b) := by simp
      have htake : 64 - s.fifo[q].length = 64 - (s.fifo[q].length + 1) + 1 := by omega
      rw [h, hclass, ih (by rw [hfifo]; exact hcase.ok _ (OutFifo.write_ok _ b hroom hok))]
      dsimp only
      rw [hfifo, hcase.write_queued _ b hok hroom, hcase.length, OutFifo.write_length, htake, List.take_succ_cons,
        List.append_assoc]
      rfl

theorem fifoPush_fifo_ne {q' : Port} (hne : q ≠ q') (bytes : List Byte) (s : State) :
    (fifoPush q' bytes s).fifo[q] = s.fifo[q] ∧ (fifoPush q' bytes s).env = s.env :=
  fifoPush_keeps (fun t => t.fifo[q] = s.fifo[q] ∧ t.env = s.env) q' (fun _ h => h)
    (fun _ t ⟨hf, he⟩ _ => ⟨(modFifo_ne q' q _ t hne).trans hf, he⟩) bytes s ⟨rfl, rfl⟩

/-- The turns of other ports leave a port's queue and its producer's answer. -/
theorem foldl_p2PullPort_ne (ports : List Port) (hq : q ∉ ports) (s : State) :
    (ports.foldl p2PullPort s).fifo[q] = s.fifo[q] ∧ (ports.foldl p2PullPort s).env = s.env := by
  refine foldl_keeps (fun t => t.fifo[q] = s.fifo[q] ∧ t.env = s.env) p2PullPort ports
    (fun q' t hq' ⟨hf, he⟩ => ?_) s ⟨rfl, rfl⟩
  obtain ⟨hf', he'⟩ := fifoPush_fifo_ne (ne_of_mem_of_not_mem hq' hq).symm (pullAnswer q' t) (emitPull q' t)
  exact ⟨hf'.trans hf, he'.trans he⟩

theorem mem_pulledPorts_p2 (hv : s.variant = .p2) : q ∈ pulledPorts s ↔ q.val < s.nOut.val := by
  simp [pulledPorts, hv]

theorem pulledPorts_nodup (hv : s.variant = .p2) : (pulledPorts s).Nodup := by
  rw [pulledPorts, hv, allPorts_eq]
  exact (List.nodup_finRange _).filter _

/-- The pull phase puts behind each queue what fits of its producer's answer. -/
theorem p2Pull_queued (hv : s.variant = .p2) (hq : q.val < s.nOut.val) (hok : s.fifo[q].ok = true) :
    (p2Pull s).fifo[q].queued = s.fifo[q].queued ++ (s.env.pull[q]).take (64 - s.fifo[q].length) := by
  obtain ⟨before, after, hports⟩ := List.append_of_mem ((mem_pulledPorts_p2 hv).2 hq)
  have hnd := pulledPorts_nodup hv
  rw [hports, List.nodup_middle, List.nodup_cons, List.mem_append, not_or] at hnd
  obtain ⟨⟨hbefore, hafter⟩, _⟩ := hnd
  obtain ⟨hf, he⟩ := foldl_p2PullPort_ne before hbefore s
  rw [p2Pull, hports, List.foldl_append, List.foldl_cons]
  generalize before.foldl p2PullPort s = t at hf he ⊢
  obtain ⟨hlater, _⟩ := foldl_p2PullPort_ne after hafter (p2PullPort t q)
  have hpush := fifoPush_queued (s := emitPull q t) (pullAnswer q t) (hf ▸ hok)
  rw [hlater, p2PullPort, hpush, emitPull, emit_fifo, pullAnswer, hf, he]

theorem p2Pull_fifoOk (hv : s.variant = .p2) (hok : FifoOk s) : FifoOk (p2Pull s) :=
  chain_keeps FifoOk (fun _ _ => Act.fifoOk) (p2Pull_acts (c := configOf s) (W := True) hv s rfl) hok

/-- A byte of an answer that does not fit is reported. -/
theorem report_mem_p2PullEvents (hq : q.val < s.nOut.val)
    (hover : 64 - s.fifo[q].length < (s.env.pull[q]).length) :
    .report 3 (BitVec.ofNat 8 q.val) ∈ p2PullEvents s := by
  have hlt : 64 < s.fifo[q].length + (s.env.pull[q]).length := by omega
  refine List.mem_flatMap.2 ⟨q, List.mem_filter.2 ⟨mem_allPorts q, decide_eq_true hq⟩, ?_⟩
  rw [if_pos hlt]
  exact List.mem_cons_of_mem _ (List.mem_singleton_self _)

theorem txSubmit_not_mem_p2PullEvents (packet : List Byte) (subframes : List (Nat × Nat)) (accepted : Bool) :
    .txSubmit packet subframes accepted ∉ p2PullEvents s := by
  intro h
  obtain ⟨q, _, hq⟩ := List.mem_flatMap.1 h
  split at hq <;> simp at hq

/-! ### The packet only grows -/

theorem emitSlot_out_prefix (b : Byte) (s : State) : s.enc.out ++ [b] <+: (emitSlot b s).enc.out := by
  rw [emitSlot_eq]
  split
  · exact ⟨[0x01, 0x00], by simp⟩
  · exact List.prefix_rfl

theorem emitSlot_out_grows (b : Byte) (s : State) : s.enc.out <+: (emitSlot b s).enc.out :=
  (List.prefix_append _ _).trans (emitSlot_out_prefix b s)

theorem padSlots_grows (left : Nat) (s : State) :
    (padSlots left s).fifo = s.fifo ∧ s.enc.out <+: (padSlots left s).enc.out := by
  induction left generalizing s with
  | zero => exact ⟨rfl, List.prefix_rfl⟩
  | succ left ih =>
    rw [padSlots]
    split
    · exact ⟨rfl, List.prefix_rfl⟩
    · obtain ⟨hf, hout⟩ := ih (emitSlot filler s)
      exact ⟨hf.trans (emitSlot_fifo filler s), (emitSlot_out_grows filler s).trans hout⟩

theorem setDue_out (d : P2Due) (s : State) : (setDue d s).enc.out = s.enc.out := rfl

theorem emitSwitchMarker_out_grows (q : Port) (s : State) : s.enc.out <+: (emitSwitchMarker q s).enc.out := by
  have hmarker : s.enc.out <+: (emitMarker q s).enc.out := by
    rw [emitMarker, setDue_out]
    exact emitSlot_out_grows marker s
  rw [emitSwitchMarker, emitSwitchPort, setDue_out, setLastOutputPort_enc]
  exact hmarker.trans (emitSlot_out_grows _ _)

theorem switchTo_out_grows (q : Port) (s : State) : s.enc.out <+: (switchTo q s).enc.out := by
  have hmarker := emitSwitchMarker_out_grows q s
  unfold switchTo prime
  split
  · rw [emitPrime, setDue_out]
    exact hmarker.trans (emitSlot_out_grows _ _)
  · rw [setDue_out]
    exact hmarker

/-! ### The packer and the queue (R214, R219) -/

/-- From `s` to `t` the packer has sent the oldest bytes of port `q`, and they stand in this order in the packet. -/
def SentInOrder (q : Port) (s t : State) : Prop :=
  t.fifo[q].ok = true ∧ ∃ sent, s.fifo[q].queued = sent ++ t.fifo[q].queued ∧ sent.Sublist t.enc.out

theorem SentInOrder.refl (h : s.fifo[q].ok = true) : SentInOrder q s s := ⟨h, [], rfl, List.nil_sublist _⟩

theorem SentInOrder.grow (h : SentInOrder q s t) (hf : u.fifo[q] = t.fifo[q]) (hout : t.enc.out <+: u.enc.out) :
    SentInOrder q s u := by
  obtain ⟨hok, sent, hqueue, hsub⟩ := h
  rw [SentInOrder, hf]
  exact ⟨hok, sent, hqueue, hsub.trans hout.sublist⟩

theorem emitFifoByte_out_prefix (q : Port) (s : State) :
    s.enc.out ++ [s.fifo[q].peek] <+: (emitFifoByte q s).enc.out :=
  emitSlot_out_prefix _ (modFifo q OutFifo.sent s)

/-- The popped byte goes behind the bytes that were sent before it. -/
theorem SentInOrder.emitFifoByte (h : SentInOrder q s t) (hsend : 0 < t.fifo[q].sendableLength) :
    SentInOrder q s (emitFifoByte q t) := by
  obtain ⟨hok, sent, hqueue, hsub⟩ := h
  obtain ⟨hle, _, hrd, _⟩ := (OutFifo.ok_iff _).1 hok
  have hfifo : (Machine.emitFifoByte q t).fifo[q] = t.fifo[q].sent := by rw [emitFifoByte_fifo, modFifo_self]
  rw [SentInOrder, hfifo]
  refine ⟨t.fifo[q].sent_ok hsend hok, sent ++ [t.fifo[q].peek], ?_, ?_⟩
  · rw [hqueue, t.fifo[q].sent_queued (hsend.trans_le hle) hrd, List.append_assoc]
    rfl
  · exact (hsub.append (List.Sublist.refl _)).trans (emitFifoByte_out_prefix q t).sublist

theorem SentInOrder.drainPort (h : SentInOrder q s t) (q' : Port) : SentInOrder q s (drainPort q' t) := by
  refine drainLoop_keeps (SentInOrder q s) q' (fun u hu hsend _ _ => ?_) (fun u hu _ _ _ => ?_)
    (fun u hu _ _ _ => ?_) _ t h
  · by_cases hq : q = q'
    · subst hq
      exact hu.emitFifoByte hsend
    · refine hu.grow ?_ ((List.prefix_append _ _).trans (emitFifoByte_out_prefix q' u))
      rw [emitFifoByte_fifo, modFifo_ne q' q _ u hq]
  · obtain ⟨hf, hout⟩ := padSlots_grows group u
    exact hu.grow (congrArg (·[q]) hf) hout
  · exact hu.grow (congrArg (·[q]) (switchTo_fifo q' u)) (switchTo_out_grows q' u)

theorem pack_sentInOrder (h : s.fifo[q].ok = true) : SentInOrder q s (pack s) := by
  have hvisit : SentInOrder q s (visitPorts (visitOrder s) s) :=
    visitPorts_keeps (SentInOrder q s) _ (fun q' _ _ hu => hu.drainPort q') s (.refl h)
  unfold pack
  dsimp only
  split
  · obtain ⟨hf, hout⟩ := padSlots_grows group (visitPorts (visitOrder s) s)
    exact hvisit.grow (congrArg (·[q]) hf) hout
  · exact hvisit

/-! ### The events of the invocation -/

theorem newEvents_encodes (hv : s.variant = .p2) (hok : FifoOk s) :
    newEvents s (accept (setEnc EncState.init (p2Submit (assembled s)))) =
      p2PullEvents s ++ p2SubmitEvents (assembled s) := by
  obtain ⟨F, hpull⟩ := p2Pull_frame (setEnc EncState.init (setActive false s)) hv hok
  have hevents : (assembled s).events = s.events ++ p2PullEvents s := by
    have hframe := (assembled_packedFrom s).frame
    rw [hframe, hpull]
    rfl
  rw [newEvents, accept_events, setEnc_events, p2Submit_events, hevents, List.append_assoc, List.drop_left]

theorem txSubmit_mem_p2SubmitEvents {packet : List Byte} {subframes : List (Nat × Nat)} {accepted : Bool}
    (h : .txSubmit packet subframes accepted ∈ p2SubmitEvents s) : packet = s.enc.out := by
  unfold p2SubmitEvents submitEvents at h
  split at h
  · cases h
  · split at h
    · obtain ⟨hpacket, _⟩ : packet = s.enc.out ∧ subframes = p2Subframes s.enc.groups ∧ accepted = true := by
        simpa using h
      exact hpacket
    · obtain ⟨hpacket, _⟩ : packet = s.enc.out ∧ subframes = p2Subframes s.enc.groups ∧ accepted = false := by
        simpa using h
      exact hpacket

theorem txSubmit_of_out_ne_nil (h : s.enc.out ≠ []) :
    .txSubmit s.enc.out (p2Subframes s.enc.groups) s.env.accept ∈ p2SubmitEvents s := by
  rw [p2SubmitEvents, if_neg h, submitEvents]
  cases s.env.accept <;> simp

/-- Settles O50: the pull phase takes what fits (`p2Pull_queued`), and the packer sends the oldest bytes into the packet
(`pack_sentInOrder`), which the one TX_SUBMIT carries. -/
theorem noQueuedByteIsLostOrReordered : Obligations.NoQueuedByteIsLostOrReordered := by
  intro s t i q henc hv hq hok hexec
  rw [exec_encodes_p2 henc hv, Host.Outcome.next.injEq] at hexec
  subst hexec
  have hpulled := p2Pull_queued (s := setEnc EncState.init (setActive false s)) hv hq (hok q)
  obtain ⟨_, sent, hqueue, hsub⟩ := pack_sentInOrder (q := q)
    (p2Pull_fifoOk (s := setEnc EncState.init (setActive false s)) hv hok q)
  rw [hpulled] at hqueue
  have hnew := newEvents_encodes hv hok
  refine ⟨64 - s.fifo[q].length, sent, ?_, fun hover => ?_, fun packet subframes accepted hmem => ?_, fun hnone => ?_⟩
  · rw [accept_fifo, setEnc_fifo, p2Submit_fifo]
    exact hqueue
  · rw [hnew]
    exact List.mem_append_left _ (report_mem_p2PullEvents hq hover)
  · rw [hnew] at hmem
    rcases List.mem_append.1 hmem with h | h
    · exact absurd h (txSubmit_not_mem_p2PullEvents _ _ _)
    · rw [txSubmit_mem_p2SubmitEvents h]
      exact hsub
  · have hout : (assembled s).enc.out = [] := by
      by_contra hne
      have hmem := List.mem_append_right (p2PullEvents s) (txSubmit_of_out_ne_nil hne)
      rw [← hnew] at hmem
      exact hnone _ _ _ hmem
    exact List.sublist_nil.1 (hout ▸ hsub)

end Sys2Proof.Machine
end

section
/-! PROOFS. What a P2 packet of at most two ports looks like (30_encoding.md R88, 45_p2_encoder.md R209 to R215, R220).
The packet under assembly is followed as the list of slot bytes that it carries (`Carries`): each action of the packer
appends to that list, and the packet of the list is `packetOf`. -/

namespace Sys2Proof.Machine

variable {s t : State} {q r : Port} {i : Instr} {slots opened : List Byte} {closed : List (List Byte)}

/-! ### The packet of a list of slot bytes (30_encoding.md R88) -/

theorem groupCount_append (chunk rest : List Byte) (h : chunk.length = 12) :
    groupCount (chunk ++ rest) = groupCount rest + 1 := by
  simp only [groupCount, List.length_append, h]
  omega

/-- The first twelve slot bytes are a group of their own. -/
theorem packetOf_append (chunk rest : List Byte) (h : chunk.length = 12) :
    packetOf (chunk ++ rest) = chunk ++ trailer ++ packetOf rest := by
  have hfirst : (chunk ++ rest).take 12 = chunk := List.take_left' h
  have hrest (g : Nat) : (chunk ++ rest).drop (12 * (g + 1)) = rest.drop (12 * g) := by
    rw [show 12 * (g + 1) = chunk.length + 12 * g by omega, ← List.drop_drop, List.drop_left]
  simp only [packetOf, groupCount_append chunk rest h, List.range_succ_eq_map, List.flatMap_cons, List.flatMap_map,
    hrest, Nat.mul_zero, List.drop_zero, hfirst, h, Nat.sub_self, List.replicate_zero, List.append_nil]

/-- The last group, filled up. -/
theorem packetOf_of_le (h0 : 0 < opened.length) (h12 : opened.length ≤ 12) :
    packetOf opened = opened ++ List.replicate (12 - opened.length) 0xFF ++ trailer := by
  have hone : groupCount opened = 1 := by rw [groupCount]; omega
  simp only [packetOf, hone, List.range_one, List.flatMap_singleton, Nat.mul_zero, List.drop_zero,
    List.take_of_length_le h12]

theorem packetOf_closed (closed : List (List Byte)) (hclosed : ∀ c ∈ closed, c.length = 12) (opened : List Byte) :
    packetOf (closed.flatten ++ opened) = closed.flatMap (· ++ trailer) ++ packetOf opened ∧
      groupCount (closed.flatten ++ opened) = closed.length + groupCount opened := by
  induction closed with
  | nil => exact ⟨rfl, (Nat.zero_add _).symm⟩
  | cons c closed ih =>
    have hc := hclosed c List.mem_cons_self
    obtain ⟨hpacket, hcount⟩ := ih fun c' hc' => hclosed c' (List.mem_cons_of_mem _ hc')
    rw [List.flatten_cons, List.append_assoc, packetOf_append c _ hc, groupCount_append c _ hc, hpacket, hcount,
      List.flatMap_cons, List.length_cons]
    exact ⟨by simp only [List.append_assoc], by omega⟩

/-! ### The packet under assembly -/

/-- The packet under assembly holds these closed groups and the slot bytes of the open one. -/
structure Grouped (closed : List (List Byte)) (opened : List Byte) (e : EncState) : Prop where
  whole : ∀ c ∈ closed, c.length = 12
  room : opened.length < 12
  out : e.out = closed.flatMap (· ++ trailer) ++ opened
  k : e.k = opened.length
  groups : e.groups = closed.length

/-- The packet under assembly carries these slot bytes. -/
def Carries (slots : List Byte) (e : EncState) : Prop :=
  ∃ closed opened, slots = closed.flatten ++ opened ∧ Grouped closed opened e

theorem Carries.init : Carries [] EncState.init :=
  ⟨[], [], rfl, fun _ h => absurd h List.not_mem_nil, Nat.zero_lt_succ 11, rfl, rfl, rfl⟩

theorem length_flatten_of_whole (h : ∀ c ∈ closed, c.length = 12) : closed.flatten.length = 12 * closed.length := by
  rw [List.length_flatten, List.map_eq_replicate_iff.2 h, List.sum_replicate, smul_eq_mul, Nat.mul_comm]

theorem Carries.position (h : Carries slots s.enc) :
    s.enc.k = slots.length % 12 ∧ s.enc.groups = slots.length / 12 := by
  obtain ⟨closed, opened, rfl, hg⟩ := h
  have hroom := hg.room
  rw [hg.k, hg.groups, List.length_append, length_flatten_of_whole hg.whole]
  omega

/-- A group that was filled is closed. -/
theorem Grouped.close {e e' : EncState} (h : Grouped closed opened e) (more : List Byte)
    (hfull : opened.length + more.length = 12) (hout : e'.out = e.out ++ more ++ trailer) (hk : e'.k = 0)
    (hgroups : e'.groups = e.groups + 1) : Carries (closed.flatten ++ opened ++ more) e' := by
  refine ⟨closed ++ [opened ++ more], [], by simp, ?_, Nat.zero_lt_succ 11, ?_, hk, ?_⟩
  · intro c hc
    rcases List.mem_append.1 hc with hc | hc
    · exact h.whole c hc
    · rw [List.mem_singleton.1 hc, List.length_append, hfull]
  · rw [hout, h.out]
    simp
  · rw [hgroups, h.groups]
    simp

/-- Every slot byte goes behind the slot bytes that the packet carries (R207). -/
theorem Carries.emitSlot (h : Carries slots s.enc) (b : Byte) : Carries (slots ++ [b]) (emitSlot b s).enc := by
  obtain ⟨closed, opened, rfl, hg⟩ := h
  have hroom := hg.room
  rw [emitSlot_eq]
  by_cases hk : s.enc.k = 11
  · rw [if_pos hk]
    refine hg.close [b] ?_ ?_ rfl rfl
    · rw [← hg.k, hk]; rfl
    · simp [trailer]
  · rw [if_neg hk]
    have hlen : opened.length ≠ 11 := hg.k ▸ hk
    refine ⟨closed, opened ++ [b], List.append_assoc _ _ _, hg.whole, ?_, ?_, ?_, hg.groups⟩
    · rw [List.length_append]; simp only [List.length_singleton]; omega
    · dsimp only; rw [hg.out, List.append_assoc]
    · dsimp only; rw [hg.k, List.length_append, List.length_singleton]

theorem Carries.setLastOutputPort (h : Carries slots s.enc) (q : Port) :
    Carries slots (setLastOutputPort q s).enc := h

theorem Carries.modFifo (h : Carries slots s.enc) (q : Port) (f : OutFifo → OutFifo) :
    Carries slots (modFifo q f s).enc := h

/-- What a switch owes next is no part of the packet. -/
theorem Carries.setDue (h : Carries slots s.enc) (d : P2Due) : Carries slots (setDue d s).enc := by
  obtain ⟨closed, opened, hslots, hg⟩ := h
  exact ⟨closed, opened, hslots, hg.whole, hg.room, hg.out, hg.k, hg.groups⟩

/-- Padding is filler to the end of the group (R213). -/
theorem Carries.padGroup (h : Carries slots s.enc) (hk : 0 < s.enc.k) :
    Carries (slots ++ List.replicate (12 - s.enc.k) 0xFF) (padGroup s).enc := by
  obtain ⟨closed, opened, rfl, hg⟩ := h
  have hroom := hg.room
  have hlt : s.enc.k < 12 := hg.k ▸ hroom
  rw [padGroup_eq s hk hlt]
  refine hg.close _ ?_ rfl rfl rfl
  rw [List.length_replicate, hg.k]
  omega

/-- The priming byte that a switch to this FIFO's port sends (R212). -/
def primingBytes (f : OutFifo) : List Byte := if primeDue f then [f.lastCommand] else []

/-- A switch sends the marker, and the priming byte where one is due (R211, R212). -/
theorem Carries.switchTo (h : Carries slots s.enc) (q : Port) :
    Carries (slots ++ ([0xF5, portByte q] ++ primingBytes s.fifo[q])) (switchTo q s).enc := by
  have hmarker : Carries (slots ++ [marker]) (emitMarker q s).enc :=
    (h.emitSlot marker).setDue (.index q)
  have hport : Carries (slots ++ [marker] ++ [portByte q]) (emitSwitchMarker q s).enc :=
    ((hmarker.emitSlot (portByte q)).setLastOutputPort q).setDue .priming
  have hfifo : (emitSwitchMarker q s).fifo = s.fifo := by simp [emitSwitchMarker, emitSwitchPort, emitMarker]
  rw [List.append_assoc] at hport
  unfold Machine.switchTo prime primingBytes
  rw [hfifo]
  split
  · rw [← List.append_assoc, ← hfifo]
    exact (hport.emitSlot _).setDue _
  · rw [List.append_nil]
    exact hport.setDue _

theorem Carries.emitFifoByte (h : Carries slots s.enc) (q : Port) :
    Carries (slots ++ [s.fifo[q].peek]) (emitFifoByte q s).enc :=
  ((h.modFifo q OutFifo.sent).emitSlot s.fifo[q].peek).setDue .slot

/-! ### The drain of one port -/

/-- Port `q` was drained: it is the last output port, it has no sendable byte left, and the packet carries `slots`. -/
structure DrainedTo (q : Port) (slots : List Byte) (t : State) : Prop where
  carries : Carries slots t.enc
  nothing : t.fifo[q].sendableLength = 0
  last : t.lastOutputPort = some q

theorem OutFifo.sendable_length (f : OutFifo) : f.sendable.length = f.sendableLength := by
  simp [OutFifo.sendable]

theorem OutFifo.sendable_of_zero (f : OutFifo) (h : f.sendableLength = 0) : f.sendable = [] :=
  List.length_eq_zero_iff.1 (f.sendable_length.trans h)

theorem OutFifo.sent_sendable (f : OutFifo) (hsend : 0 < f.sendableLength) (hok : f.ok = true) :
    f.sendable = f.peek :: f.sent.sendable := by
  obtain ⟨hle, _, hrd, _⟩ := (OutFifo.ok_iff _).1 hok
  obtain ⟨hle', _⟩ := (OutFifo.ok_iff _).1 (f.sent_ok hsend hok)
  rw [f.sendable_eq_take hle, f.sent.sendable_eq_take hle', f.sent_queued (hsend.trans_le hle) hrd,
    f.sent_sendableLength, ← List.take_succ_cons, Nat.sub_add_cancel hsend]

theorem Carries.groups_ne_max (h : Carries slots s.enc) (hfit : slots.length < 48) :
    s.enc.groups ≠ maxSubframes := by
  obtain ⟨_, hgroups⟩ := h.position
  rw [hgroups]
  change slots.length / 12 ≠ 4
  omega

theorem DrainedTo.of_nothing (hlast : t.lastOutputPort = some q) (hc : Carries slots t.enc)
    (h0 : t.fifo[q].sendableLength = 0) : DrainedTo q (slots ++ t.fifo[q].sendable) t := by
  rw [t.fifo[q].sendable_of_zero h0, List.append_nil]
  exact ⟨hc, h0, hlast⟩

/-- The last output port sends its bytes with no marker (R214). -/
theorem drainLoop_own (left : Nat) (hlast : t.lastOutputPort = some q) (hc : Carries slots t.enc)
    (hok : t.fifo[q].ok = true) (hfit : (slots ++ t.fifo[q].sendable).length ≤ 48)
    (hleft : t.fifo[q].sendableLength ≤ left) :
    DrainedTo q (slots ++ t.fifo[q].sendable) (drainLoop q left t) := by
  induction left generalizing t slots with
  | zero => exact .of_nothing hlast hc (Nat.le_zero.1 hleft)
  | succ left ih =>
    by_cases h0 : t.fifo[q].sendableLength = 0
    · rw [drainLoop, if_pos h0]
      exact .of_nothing hlast hc h0
    · have hsend : 0 < t.fifo[q].sendableLength := Nat.pos_of_ne_zero h0
      have hfifo : (emitFifoByte q t).fifo[q] = t.fifo[q].sent := by rw [emitFifoByte_fifo, modFifo_self]
      have hroom : slots.length < 48 := by
        rw [List.length_append, OutFifo.sendable_length] at hfit
        omega
      rw [drainLoop, if_neg h0, if_neg (hc.groups_ne_max hroom), if_pos hlast]
      rw [t.fifo[q].sent_sendable hsend hok, List.append_cons, ← hfifo] at hfit ⊢
      refine ih ((emitFifoByte_lastOutputPort q t).trans hlast) (hc.emitFifoByte q) ?_ hfit ?_
      · rw [hfifo]; exact t.fifo[q].sent_ok hsend hok
      · rw [hfifo, OutFifo.sent_sendableLength]; omega

/-- A switch, with room for it in the group, and then the port's bytes (R211, R212, R214). -/
theorem drainLoop_switch (left : Nat) (hlast : t.lastOutputPort ≠ some q) (hc : Carries slots t.enc)
    (hk : t.enc.k < 10) (hok : t.fifo[q].ok = true) (hsend : 0 < t.fifo[q].sendableLength)
    (hfit : (slots ++ ([0xF5, portByte q] ++ primingBytes t.fifo[q]) ++ t.fifo[q].sendable).length ≤ 48)
    (hleft : t.fifo[q].sendableLength < left) :
    DrainedTo q (slots ++ ([0xF5, portByte q] ++ primingBytes t.fifo[q]) ++ t.fifo[q].sendable)
      (drainLoop q left t) := by
  obtain ⟨left, rfl⟩ : ∃ n, left = n + 1 := ⟨left - 1, by omega⟩
  have hroom : slots.length < 48 := by
    simp only [List.length_append, List.length_cons] at hfit
    omega
  have hfifo : (switchTo q t).fifo[q] = t.fifo[q] := congrArg (·[q]) (switchTo_fifo q t)
  rw [drainLoop, if_neg hsend.ne', if_neg (hc.groups_ne_max hroom), if_neg hlast, if_neg (Nat.not_le.2 hk)]
  have hdrain := drainLoop_own left (switchTo_lastOutputPort q t) (hc.switchTo q) (hfifo.symm ▸ hok)
    (hfifo.symm ▸ hfit) (hfifo.symm ▸ Nat.lt_succ_iff.1 hleft)
  rwa [hfifo] at hdrain

theorem switchedSlots_eq (first : List Byte) (q : Port) (f : OutFifo) (hsend : 0 < f.sendableLength)
    (hok : f.ok = true) :
    switchedSlots first q f.lastCommand f.sendable =
      first ++ List.replicate (if 10 ≤ first.length % 12 then 12 - first.length % 12 else 0) 0xFF ++
        ([0xF5, portByte q] ++ primingBytes f) ++ f.sendable := by
  have hhead : f.sendable.getD 0 0 = f.peek := by rw [f.sent_sendable hsend hok]; rfl
  have hprime : (if f.peek.getLsbD 7 = false ∧ f.lastCommand ≠ 0x00 then [f.lastCommand] else []) =
      primingBytes f := by
    rw [primingBytes]
    simp only [primeDue_eq_true_iff]
  rw [switchedSlots, hhead, hprime]
  simp only [List.append_assoc]
  rfl

theorem drainPort_own (hlast : t.lastOutputPort = some q) (hc : Carries slots t.enc) (hok : t.fifo[q].ok = true)
    (hfit : (slots ++ t.fifo[q].sendable).length ≤ 48) :
    DrainedTo q (slots ++ t.fifo[q].sendable) (drainPort q t) :=
  drainLoop_own _ hlast hc hok hfit (Nat.le_add_right _ 2)

/-- Another port is reached by a switch, which starts in a new group where fewer than three slots are left (R213). -/
theorem drainPort_switch (hlast : t.lastOutputPort ≠ some q) (hc : Carries slots t.enc) (hok : t.fifo[q].ok = true)
    (hsend : 0 < t.fifo[q].sendableLength)
    (hfit : (switchedSlots slots q t.fifo[q].lastCommand t.fifo[q].sendable).length ≤ 48) :
    DrainedTo q (switchedSlots slots q t.fifo[q].lastCommand t.fifo[q].sendable) (drainPort q t) := by
  obtain ⟨hk, _⟩ := hc.position
  rw [switchedSlots_eq slots q _ hsend hok, ← hk] at hfit ⊢
  by_cases h10 : 10 ≤ t.enc.k
  · rw [if_pos h10] at hfit ⊢
    have hroom : slots.length < 48 := by
      simp only [List.length_append, List.length_cons] at hfit
      omega
    have hpad := padGroup_eq t (by omega) (by omega)
    have hfifo : (padGroup t).fifo = t.fifo := by rw [hpad]
    have hlast' : (padGroup t).lastOutputPort ≠ some q := by rw [hpad]; exact hlast
    have hk' : (padGroup t).enc.k < 10 := by rw [hpad]; exact Nat.zero_lt_succ 9
    rw [drainPort, drainLoop, if_neg hsend.ne', if_neg (hc.groups_ne_max hroom), if_neg hlast, if_pos h10]
    rw [← hfifo] at hfit hsend hok ⊢
    exact drainLoop_switch _ hlast' (hc.padGroup (by omega)) hk' hok hsend hfit (Nat.lt_succ_self _)
  · rw [if_neg h10, List.replicate_zero, List.append_nil] at hfit ⊢
    exact drainLoop_switch _ hlast hc (Nat.lt_of_not_le h10) hok hsend hfit (by omega)

/-! ### The visit -/

/-- The visit goes on after a port that was drained (R208, R209). -/
theorem visitPorts_cons_of_drained (ports : List Port) (h : DrainedTo q slots (drainPort q t)) :
    visitPorts (q :: ports) t = visitPorts ports (drainPort q t) := by
  rw [visitPorts, packStopped_of_nothing h.nothing]
  rfl

/-- Where one port alone has sendable bytes, its drain is the whole visit. -/
theorem visitPorts_of_one {ports : List Port} (hq : q ∈ ports) (hp : PackedFrom s t)
    (hothers : ∀ p : Port, p ≠ q → t.fifo[p].sendableLength = 0) (h : DrainedTo q slots (drainPort q t)) :
    visitPorts ports t = drainPort q t := by
  obtain ⟨before, after, rfl, hbefore⟩ := List.eq_append_cons_of_mem hq
  rw [visitPorts_append_of_nothing before _ fun p hp' => hothers p (ne_of_mem_of_not_mem hp' hbefore),
    visitPorts_cons_of_drained after h, visitPorts_of_nothing]
  intro p _
  by_cases hpq : p = q
  · rw [hpq]; exact h.nothing
  · rw [drainPort_fifo_ne p hp hpq]; exact hothers p hpq

/-- The visit starts at the last output port (R209). -/
theorem visitOrder_of_last (hlast : s.lastOutputPort = some q) (hq : q.val < s.nOut.val) :
    ∃ ports, visitOrder s = q :: ports := by
  obtain ⟨n, hn⟩ : ∃ n, s.nOut.val = n + 1 := ⟨s.nOut.val - 1, by omega⟩
  have hstart : Fin.ofNat maxPortSlots ((visitStart s + 0) % (n + 1)) = q := by
    rw [visitStart, hlast, Nat.add_zero, Nat.mod_eq_of_lt (hn ▸ hq)]
    exact Fin.ext (Nat.mod_eq_of_lt q.isLt)
  rw [visitOrder, hn, List.range_succ_eq_map, List.map_cons, hstart]
  exact ⟨_, rfl⟩

theorem visitPorts_one_port (henc : s.enc = EncState.init) (hlast : s.lastOutputPort = some q)
    (hq : q.val < s.nOut.val) (hok : s.fifo[q].ok = true) (hfit : s.fifo[q].sendable.length ≤ 48)
    (hothers : ∀ p : Port, p ≠ q → s.fifo[p].sendableLength = 0) :
    DrainedTo q s.fifo[q].sendable (visitPorts (visitOrder s) s) := by
  have hdrain : DrainedTo q s.fifo[q].sendable (drainPort q s) :=
    drainPort_own hlast (henc ▸ Carries.init) hok hfit
  rwa [visitPorts_of_one (mem_visitOrder s q hq) (.start henc) hothers hdrain]

/-- Where the last output port has nothing to send, the packet begins with the switch. -/
theorem visitPorts_switch (henc : s.enc = EncState.init) (hr : r.val < s.nOut.val) (hok : s.fifo[r].ok = true)
    (hlast : s.lastOutputPort ≠ some r) (hsend : 0 < s.fifo[r].sendableLength)
    (hothers : ∀ p : Port, p ≠ r → s.fifo[p].sendableLength = 0)
    (hfit : (switchedSlots [] r s.fifo[r].lastCommand s.fifo[r].sendable).length ≤ 48) :
    DrainedTo r (switchedSlots [] r s.fifo[r].lastCommand s.fifo[r].sendable) (visitPorts (visitOrder s) s) ∧
      ∀ p : Port, p ≠ r → (visitPorts (visitOrder s) s).fifo[p].sendableLength = 0 := by
  have hstart : PackedFrom s s := .start henc
  have hswitch := drainPort_switch hlast (henc ▸ Carries.init) hok hsend hfit
  rw [visitPorts_of_one (mem_visitOrder s r hr) hstart hothers hswitch]
  refine ⟨hswitch, fun p hp => ?_⟩
  rw [drainPort_fifo_ne p hstart hp, hothers p hp]

/-- The last output port's bytes come first, and then those of another port behind a switch. -/
theorem visitPorts_own_then_switch (henc : s.enc = EncState.init) (hne : q ≠ r) (hq : q.val < s.nOut.val)
    (hr : r.val < s.nOut.val) (hokq : s.fifo[q].ok = true) (hokr : s.fifo[r].ok = true)
    (hlast : s.lastOutputPort = some q) (hsend : 0 < s.fifo[r].sendableLength)
    (hothers : ∀ p : Port, p ≠ q → p ≠ r → s.fifo[p].sendableLength = 0)
    (hfit : (switchedSlots s.fifo[q].sendable r s.fifo[r].lastCommand s.fifo[r].sendable).length ≤ 48) :
    DrainedTo r (switchedSlots s.fifo[q].sendable r s.fifo[r].lastCommand s.fifo[r].sendable)
        (visitPorts (visitOrder s) s) ∧
      (visitPorts (visitOrder s) s).fifo[q].sendableLength = 0 := by
  have hstart : PackedFrom s s := .start henc
  have hfirst : s.fifo[q].sendable.length ≤ 48 := by
    rw [switchedSlots] at hfit
    simp only [List.length_append] at hfit
    omega
  have hdrain : DrainedTo q s.fifo[q].sendable (drainPort q s) :=
    drainPort_own hlast (henc ▸ Carries.init) hokq hfirst
  have hpacked : PackedFrom s (drainPort q s) := hstart.drainPort q
  have hkept (p : Port) (hp : p ≠ q) : (drainPort q s).fifo[p] = s.fifo[p] := drainPort_fifo_ne p hstart hp
  obtain ⟨ports, hports⟩ := visitOrder_of_last hlast hq
  have hmem : r ∈ ports := List.mem_of_ne_of_mem hne.symm (hports ▸ mem_visitOrder s r hr)
  rw [hports, visitPorts_cons_of_drained ports hdrain]
  rw [← hkept r hne.symm] at hfit hsend hokr ⊢
  generalize drainPort q s = u at hdrain hpacked hkept hfit hsend hokr ⊢
  have hlast' : u.lastOutputPort ≠ some r := hdrain.last ▸ fun h => hne (Option.some.inj h)
  have hswitch := drainPort_switch hlast' hdrain.carries hokr hsend hfit
  have hidle (p : Port) (hp : p ≠ r) : u.fifo[p].sendableLength = 0 := by
    by_cases hpq : p = q
    · rw [hpq]; exact hdrain.nothing
    · rw [hkept p hpq]; exact hothers p hpq hp
  rw [visitPorts_of_one hmem hpacked hidle hswitch, drainPort_fifo_ne q hpacked hne]
  exact ⟨hswitch, hdrain.nothing⟩

/-- The last output port's bytes, if it has any, and then those of another port behind a switch. -/
theorem visitPorts_two_ports (henc : s.enc = EncState.init) (hne : q ≠ r) (hq : q.val < s.nOut.val)
    (hr : r.val < s.nOut.val) (hokq : s.fifo[q].ok = true) (hokr : s.fifo[r].ok = true)
    (hlast : s.lastOutputPort = some q ∨ s.lastOutputPort ≠ some r ∧ s.fifo[q].sendableLength = 0)
    (hsend : 0 < s.fifo[r].sendableLength)
    (hothers : ∀ p : Port, p ≠ q → p ≠ r → s.fifo[p].sendableLength = 0)
    (hfit : (switchedSlots s.fifo[q].sendable r s.fifo[r].lastCommand s.fifo[r].sendable).length ≤ 48) :
    DrainedTo r (switchedSlots s.fifo[q].sendable r s.fifo[r].lastCommand s.fifo[r].sendable)
        (visitPorts (visitOrder s) s) ∧
      (visitPorts (visitOrder s) s).fifo[q].sendableLength = 0 := by
  rcases hlast with hlast | ⟨hlast, hnone⟩
  · exact visitPorts_own_then_switch henc hne hq hr hokq hokr hlast hsend hothers hfit
  · have hidle (p : Port) (hp : p ≠ r) : s.fifo[p].sendableLength = 0 := by
      by_cases hpq : p = q
      · rw [hpq]; exact hnone
      · exact hothers p hpq hp
    rw [s.fifo[q].sendable_of_zero hnone] at hfit ⊢
    obtain ⟨hdrained, hnothing⟩ := visitPorts_switch henc hr hokr hlast hsend hidle hfit
    exact ⟨hdrained, hnothing q hne⟩

/-! ### The packet -/

/-- The final padding makes the packet of the slot bytes whole (R215). -/
theorem pack_carries (h : Carries slots (visitPorts (visitOrder s) s).enc) :
    (pack s).enc.out = packetOf slots ∧ (pack s).enc.groups = groupCount slots ∧
      (pack s).fifo = (visitPorts (visitOrder s) s).fifo ∧
      (pack s).lastOutputPort = (visitPorts (visitOrder s) s).lastOutputPort := by
  unfold pack
  generalize visitPorts (visitOrder s) s = t at h
  obtain ⟨closed, opened, rfl, hg⟩ := h
  obtain ⟨hpacket, hcount⟩ := packetOf_closed closed hg.whole opened
  have hroom := hg.room
  dsimp only
  rw [hpacket, hcount]
  split
  · rename_i hk
    have hpos : 0 < opened.length := hg.k ▸ hk
    have hone : groupCount opened = 1 := by rw [groupCount]; omega
    rw [padGroup_eq t hk (hg.k ▸ hroom), packetOf_of_le hpos hroom.le, hone, hg.out, hg.k, hg.groups]
    simp only [List.append_assoc, and_self]
  · rename_i hk
    have hnil : opened = [] := List.length_eq_zero_iff.1 (hg.k ▸ Nat.eq_zero_of_not_pos hk)
    subst hnil
    exact ⟨hg.out, hg.groups, rfl, rfl⟩

theorem packetOf_ne_nil (h : slots ≠ []) : packetOf slots ≠ [] := by
  have hpos := List.length_pos_iff.2 h
  obtain ⟨n, hn⟩ : ∃ n, groupCount slots = n + 1 := ⟨groupCount slots - 1, by rw [groupCount]; omega⟩
  rw [packetOf, hn, List.range_succ_eq_map]
  simp

/-- A visit that follows silent producers and carries some slot bytes is submitted as the packet of these bytes. -/
theorem exec_encodes_silent (henc : Encodes i s) (hv : s.variant = .p2)
    (henv : s.env = ⟨Vector.replicate 9 [], true⟩) (hne : slots ≠ [])
    (hvisit : DrainedTo r slots (visitPorts (visitOrder (pulledSilently s)) (pulledSilently s))) :
    ∃ t, exec i s = .next t ∧
      t.events = s.events ++ pullEvents s ++ [Event.txSubmit (packetOf slots) (framesOf slots) true] ∧
      t.fifo = (visitPorts (visitOrder (pulledSilently s)) (pulledSilently s)).fifo ∧ t.active = true ∧
      t.lastOutputPort = some r := by
  obtain ⟨hout, hgroups, hfifo, hlast⟩ := pack_carries hvisit.carries
  obtain ⟨hpacked, _⟩ := pack_whole (s := pulledSilently s) rfl
  have hframe := hpacked.frame
  have haccept : (pack (pulledSilently s)).env.accept = true := by
    rw [hframe]
    exact congrArg EnvAnswers.accept henv
  have hevents : (pack (pulledSilently s)).events = s.events ++ pullEvents s := by rw [hframe]; rfl
  have hpacket : (pack (pulledSilently s)).enc.out ≠ [] := by
    rw [hout]
    exact packetOf_ne_nil hne
  refine ⟨_, exec_encodes_p2 henc hv, ?_⟩
  rw [assembled_silent henv, p2Submit_of_ne hpacket, haccept, hevents, hout, hgroups]
  simp only [accept_events, setEnc_events, accept_fifo, setEnc_fifo, accept_active, setEnc_active,
    accept_lastOutputPort, setEnc_lastOutputPort]
  exact ⟨rfl, hfifo, Bool.or_true _, hlast.trans hvisit.last⟩

/-- Settles O49: the visit carries the bytes of the one port (`visitPorts_one_port`) or the switched slots of the two
(`visitPorts_two_ports`). -/
theorem packetSwitchesPortsOnlyWhenNeeded : Obligations.PacketSwitchesPortsOnlyWhenNeeded := by
  constructor
  · intro s q ho hv ha henv hlast hq hok hsend h12 hothers
    have henc : Encodes .txKick s := ⟨ho, answersLegal_silent henv, .inl ⟨rfl, ha⟩⟩
    have hlen := s.fifo[q].sendable_length
    have hne : s.fifo[q].sendable ≠ [] := List.length_pos_iff.1 (hlen ▸ hsend)
    have hone : groupCount s.fifo[q].sendable = 1 := by rw [groupCount, hlen]; omega
    have hvisit : DrainedTo q s.fifo[q].sendable (visitPorts (visitOrder (pulledSilently s)) (pulledSilently s)) :=
      visitPorts_one_port (s := pulledSilently s) rfl hlast hq hok (hlen ▸ h12.trans (by decide)) hothers
    obtain ⟨t, hexec, hevents, hfifo, hactive, hlast'⟩ := exec_encodes_silent henc hv henv hne hvisit
    refine ⟨t, hexec, ?_, hfifo ▸ hvisit.nothing, hactive, hlast'⟩
    rw [hevents, packetOf_of_le (hlen ▸ hsend) (hlen ▸ h12), framesOf, hone, hlen]
    rfl
  · intro s i q r henc hv henv hne hq hr hokq hokr hlast hsend hothers hfit
    have hslots : switchedSlots s.fifo[q].sendable r s.fifo[r].lastCommand s.fifo[r].sendable ≠ [] := by
      rw [switchedSlots]
      simp
    obtain ⟨hvisit, hnothing⟩ := visitPorts_two_ports (s := pulledSilently s) rfl hne hq hr hokq hokr hlast hsend
      hothers hfit
    obtain ⟨t, hexec, hevents, hfifo, hactive, hlast'⟩ := exec_encodes_silent henc hv henv hslots hvisit
    exact ⟨t, hexec, hevents, hfifo ▸ hnothing, hfifo ▸ hvisit.nothing, hactive, hlast'⟩

end Sys2Proof.Machine
end

section
/-! PROOFS. The host operations beside their decoders and encoders (46_control.md R230, R232, R233, R235): what a RESET
makes of its CFG word, what a completion does, and that an encoder invocation leaves `active` as its events say
(`Accounted`). -/

namespace Sys2Proof.Machine

variable {s t u : State} {i : Instr}

/-! ### RESET (R230, 30_encoding.md R94) -/

/-- The CFG words that name the configuration `c`. -/
theorem readCfg_eq_some_iff (cfg : BitVec 16) (c : SessionConfig) :
    readCfg cfg = some c ↔ cfg.extractLsb' 1 3 = 0 ∧ cfg.extractLsb' 12 4 = 0 ∧
      portCount? (cfg.extractLsb' 4 4) = some c.nIn ∧ portCount? (cfg.extractLsb' 8 4) = some c.nOut ∧
      (if cfg.getLsbD 0 then .p2 else .p1) = c.variant := by
  unfold readCfg
  constructor
  · intro h
    split at h
    · cases h
    · rename_i hreserved
      rw [not_or, not_not, not_not] at hreserved
      obtain ⟨hlow, hhigh⟩ := hreserved
      split at h <;> cases h
      rename_i hin hout
      exact ⟨hlow, hhigh, hin, hout, rfl⟩
  · rintro ⟨hlow, hhigh, hin, hout, hvariant⟩
    rw [if_neg (not_or.2 ⟨not_not.2 hlow, not_not.2 hhigh⟩), hin, hout, hvariant]

theorem exec_reset_of_some {cfg : BitVec 16} {c : SessionConfig} (h : readCfg cfg = some c) (s : State) :
    exec (.reset cfg) s = .next (accept (startSession c s)) := by
  rw [exec, execReset, h]

theorem exec_reset_of_none {cfg : BitVec 16} (h : readCfg cfg = none) (s : State) :
    exec (.reset cfg) s = .next (refuse .illegalCfg s) := by
  rw [exec, execReset, h]

/-- Settles O7: a CFG word names a configuration exactly when it is legal (`readCfg_eq_some_iff`), and a new session's
records are fresh. -/
theorem resetStartsOrRefusesASession : Obligations.ResetStartsOrRefusesASession := by
  intro cfg s
  split
  · rename_i hlegal
    obtain ⟨hlow, hhigh, hin5, hin9, hout5, hout9⟩ := hlegal
    have hin := (portCount_some _ ⟨_, Nat.lt_succ_of_le hin9⟩).2 ⟨hin5, hin9, rfl⟩
    have hout := (portCount_some _ ⟨_, Nat.lt_succ_of_le hout9⟩).2 ⟨hout5, hout9, rfl⟩
    have hc := (readCfg_eq_some_iff cfg ⟨_, _, _⟩).2 ⟨hlow, hhigh, hin, hout, rfl⟩
    refine ⟨_, exec_reset_of_some hc s, rfl, rfl, rfl, rfl, fun p => ?_, fun q => ?_, rfl, rfl, rfl, rfl, rfl, rfl,
      rfl, rfl, rfl⟩
    · rw [accept_ia, startSession_ia]
      exact InRec.fresh_isFresh _
    · rw [accept_fifo, startSession_fifo]
      exact OutFifo.fresh_isFresh _
  · rename_i hillegal
    refine exec_reset_of_none (Option.eq_none_iff_forall_ne_some.2 fun c hc => hillegal ?_) s
    obtain ⟨hlow, hhigh, hin, hout, _⟩ := (readCfg_eq_some_iff cfg c).1 hc
    obtain ⟨hin5, hin9, _⟩ := (portCount_some _ _).1 hin
    obtain ⟨hout5, hout9, _⟩ := (portCount_some _ _).1 hout
    exact ⟨hlow, hhigh, hin5, hin9, hout5, hout9⟩

/-! ### TX_KICK and TX_DONE (R232, R233) -/

theorem exec_txKick_busy (ho : s.sessionOpen = true) (ha : s.active = true) :
    exec .txKick s = .next (accept s) := by
  simp [exec, execTxKick, ho, ha]

theorem exec_txDone_idle (ok : Bool) (ho : s.sessionOpen = true) (ha : s.active = false) :
    exec (.txDone ok) s = .next (accept s) := by
  simp [exec, execTxDone, ho, ha]

/-- Settles O55: a completion, and a kick after `active` is cleared, are both due invocations (`exec_of_encodes`). -/
theorem completionRetriesAtOnce : Obligations.CompletionRetriesAtOnce := by
  intro s ok ho
  refine ⟨exec_txKick_busy ho, exec_txDone_idle ok ho, fun ha hlegal => ?_⟩
  have hdone : Encodes (.txDone ok) s := ⟨ho, hlegal, .inr ⟨ok, rfl, ha⟩⟩
  have hkick : Encodes .txKick (setActive false s) := ⟨ho, hlegal, .inl ⟨rfl, rfl⟩⟩
  exact (exec_of_encodes hdone).trans (exec_of_encodes hkick).symm

/-! ### Accepted submissions -/

/-- The events hold a TX_SUBMIT that the transport accepted. -/
def HasAccepted (events : List Event) : Prop := ∃ packet subframes, .txSubmit packet subframes true ∈ events

theorem hasAccepted_append (es es' : List Event) : HasAccepted (es ++ es') ↔ HasAccepted es ∨ HasAccepted es' := by
  simp only [HasAccepted, List.mem_append, exists_or]

theorem hasAccepted_submitEvents (arg : Byte) (bytes : List Byte) (frames : List (Nat × Nat)) (accepted : Bool) :
    HasAccepted (submitEvents arg bytes frames accepted) ↔ accepted = true := by
  cases accepted <;> simp [HasAccepted, submitEvents]

theorem not_hasAccepted_pullEvents (s : State) : ¬ HasAccepted (pullEvents s) := by
  simp [HasAccepted, pullEvents]

/-- Since `s` the receive request is untouched, and `active` is set exactly where a submission was accepted. -/
def Accounted (s t : State) : Prop :=
  t.rxPosted = s.rxPosted ∧ ∃ es, t.events = s.events ++ es ∧ (t.active = true ↔ HasAccepted es)

theorem Accounted.start (ha : s.active = false) : Accounted s s :=
  ⟨rfl, [], (List.append_nil _).symm, by simp [HasAccepted, ha]⟩

/-- Writes to other fields, and events that are no accepted submission. -/
theorem Accounted.extend (h : Accounted s t) (hr : u.rxPosted = t.rxPosted) (ha : u.active = t.active)
    (es : List Event) (he : u.events = t.events ++ es) (hes : ¬ HasAccepted es) : Accounted s u := by
  obtain ⟨hrx, es', hev, hactive⟩ := h
  refine ⟨hr.trans hrx, es' ++ es, by rw [he, hev, List.append_assoc], ?_⟩
  rw [ha, hactive, hasAccepted_append, or_iff_left hes]

theorem Accounted.of_kept (h : Accounted s t) (hr : u.rxPosted = t.rxPosted) (ha : u.active = t.active)
    (he : u.events = t.events) : Accounted s u :=
  h.extend hr ha [] (he.trans (List.append_nil _).symm) (by simp [HasAccepted])

/-- Every encoder invocation starts and ends with a write of the transient encoder state. -/
theorem Accounted.then_setEnc (e : EncState) (h : Accounted s t) : Accounted s (setEnc e t) := h.of_kept rfl rfl rfl

theorem Accounted.submit (h : Accounted s t) (arg : Byte) (frames : List (Nat × Nat)) :
    Accounted s (submit arg frames t) := by
  obtain ⟨hrx, es, hev, hactive⟩ := h
  rw [submit_eq]
  refine ⟨hrx, es ++ submitEvents arg t.enc.out frames t.env.accept, by rw [hev, List.append_assoc], ?_⟩
  rw [hasAccepted_append, hasAccepted_submitEvents, ← hactive, Bool.or_eq_true]

/-! ### An encoder invocation (R235) -/

theorem Accounted.p1Finish (h : Accounted s t) : Accounted s (p1Finish t) :=
  (h.of_kept (u := p1EmitEnd (p1EmitEnd t)) rfl rfl rfl).submit 1 _

theorem p1Encode_accounted (ha : s.active = false) : Accounted s (p1Encode s) := by
  obtain ⟨j, hgroups⟩ := p1Assembled_eq ha
  have hassembled := (Accounted.start ha).extend (u := p1Groups p1Offsets
    (p1EmitRsvd (p1EmitSeq (p1Pull (setEnc EncState.init s))))) (by rw [hgroups]) (by rw [hgroups]) (pullEvents s)
    (by rw [hgroups]) (not_hasAccepted_pullEvents s)
  unfold p1Encode
  dsimp only
  refine Accounted.then_setEnc _ ?_
  split
  · exact hassembled
  · exact hassembled.p1Finish

theorem Accounted.p2PullPort (h : Accounted s t) (q : Port) : Accounted s (p2PullPort t q) := by
  have hpull : Accounted s (emitPull q t) := h.extend rfl rfl _ rfl (by simp [HasAccepted])
  exact fifoPush_keeps (Accounted s) q (fun _ hu => hu.extend rfl rfl _ rfl (by simp [HasAccepted]))
    (fun _ _ hu _ => hu.of_kept rfl rfl rfl) _ _ hpull

theorem assembled_accounted (s : State) : Accounted (setActive false s) (assembled s) := by
  have hpull : Accounted (setActive false s) (p2Pull (setEnc EncState.init (setActive false s))) :=
    foldl_keeps (Accounted (setActive false s)) p2PullPort _ (fun q _ _ h => h.p2PullPort q) _
      ((Accounted.start rfl).then_setEnc _)
  have hframe := (assembled_packedFrom s).frame
  exact hpull.of_kept (by rw [hframe]) (by rw [hframe]) (by rw [hframe])

theorem p2Encode_accounted (s : State) : Accounted (setActive false s) (p2Encode (setActive false s)) := by
  have hsubmit : Accounted (setActive false s) (p2Submit (assembled s)) := by
    unfold p2Submit
    split
    · exact assembled_accounted s
    · exact (assembled_accounted s).submit 2 _
  exact hsubmit.then_setEnc _

/-- The encoder of either variant, which runs with `active` clear. -/
theorem encodePacket_accounted (s : State) : Accounted (setActive false s) (encodePacket (setActive false s)) := by
  unfold encodePacket
  split
  · exact p1Encode_accounted rfl
  · exact p2Encode_accounted s

/-- Settles O56: the encoder runs with `active` clear (`exec_of_encodes`), and only an accepted submission sets it. -/
theorem activeMeansAnAcceptedSubmission : Obligations.ActiveMeansAnAcceptedSubmission := by
  intro s t i henc hexec
  rw [exec_of_encodes henc, Host.Outcome.next.injEq] at hexec
  subst hexec
  obtain ⟨_, es, hevents, hactive⟩ := encodePacket_accounted s
  rw [newEvents, accept_events, accept_active, hevents, setActive_events, List.drop_left]
  exact hactive

end Sys2Proof.Machine
end

section
/-! PROOFS. Between operations of a session one receive is outstanding (46_control.md R236): an RX_PACKET ends by
posting the next one (R231), and no other instruction but RESET writes `rxPosted`. -/

namespace Sys2Proof.Machine

variable {s t u : State} {i : Instr}

/-! ### The decoders' rows -/

theorem OnlyP1Decoder.rxPosted (h : OnlyP1Decoder s t) : t.rxPosted = s.rxPosted := by
  rw [OnlyP1Decoder] at h
  rw [h]

/-- A case of a payload byte writes the record of its port, and so the byte step keeps all but the decoder's state. -/
theorem payloadStep_onlyP1Decoder (classify : MaskPort → State → State)
    (hcl : ∀ (i : MaskPort) (t : State), ∃ x, classify i t = writePort i x t) (s : State) :
    OnlyP1Decoder s (payloadStep classify s) := by
  rcases payloadStep_eq classify s with ⟨_, h⟩ | ⟨i, _, ⟨_, h⟩ | ⟨_, h⟩⟩
  · rw [h]
    exact .refl s
  · rw [h]
    exact ((takePort_onlyInput i.port i s).trans (leaveData_onlyInput _ _)).onlyP1Decoder
  · obtain ⟨x, hx⟩ := hcl i (takePort i s)
    rw [h, hx]
    exact (((takePort_onlyInput i.port i s).trans (writePort_onlyInput i x _)).trans
      (leaveData_onlyInput _ _)).onlyP1Decoder

theorem P2Row.rxPosted {W : Prop} (h : P2Row W s t) : t.rxPosted = s.rxPosted := by
  obtain ⟨_, _, ht⟩ := h.runs
  rw [ht]

/-! ### The encoders' actions -/

@[simp] theorem pushOne_rxPosted (q : Port) (b : Byte) (classify : OutFifo → OutFifo) (s : State) :
    (pushOne q b classify s).rxPosted = s.rxPosted := by
  rcases pushOne_eq q b classify s with ⟨_, h⟩ | ⟨_, h⟩ <;> rw [h]

@[simp] theorem emitSlot_rxPosted (b : Byte) (s : State) : (emitSlot b s).rxPosted = s.rxPosted := by
  rw [emitSlot_eq]

@[simp] theorem padSlots_rxPosted (left : Nat) (s : State) : (padSlots left s).rxPosted = s.rxPosted := by
  induction left generalizing s with
  | zero => rfl
  | succ left ih =>
    rw [padSlots]
    split
    · rfl
    · rw [ih, emitSlot_rxPosted]

@[simp] theorem emitSwitchPort_rxPosted (q : Port) (s : State) : (emitSwitchPort q s).rxPosted = s.rxPosted :=
  emitSlot_rxPosted _ s

/-! ### The host operations -/

theorem encodeOrRefuse_rxPosted (s : State) :
    (encodeOrRefuse s (setActive false s)).rxPosted = s.rxPosted := by
  unfold encodeOrRefuse
  split
  · obtain ⟨hrx, _⟩ := encodePacket_accounted s
    exact hrx
  · rfl

theorem execTxKick_rxPosted (h : execTxKick s = .next t) : t.rxPosted = s.rxPosted := by
  unfold execTxKick at h
  split at h
  · split at h <;> cases h
    · rfl
    · rename_i ha
      have hclear : setActive false s = s := by rw [setActive, ← Bool.eq_false_iff.2 ha]
      have hkept := encodeOrRefuse_rxPosted s
      rwa [hclear] at hkept
  · cases h; rfl

theorem execTxDone_rxPosted (ok : Bool) (h : execTxDone ok s = .next t) : t.rxPosted = s.rxPosted := by
  unfold execTxDone at h
  split at h
  · split at h <;> cases h
    · exact encodeOrRefuse_rxPosted s
    · rfl
  · cases h; rfl

/-- An accepted packet is followed by the next receive request (R231). -/
theorem execRxPacket_rxPosted (pkt : List Byte) (h : execRxPacket pkt s = .next t) :
    t.rxPosted = true ∨ t.rxPosted = s.rxPosted := by
  unfold execRxPacket at h
  split at h
  · split at h <;> cases h
    · exact .inl rfl
    · exact .inr rfl
  · cases h; exact .inr rfl

/-! ### Every instruction -/

theorem whenSelected_rxPosted {row : String} {cond : Bool} (h : whenSelected row cond u = .next t)
    (hu : u.rxPosted = s.rxPosted) : t.rxPosted = s.rxPosted := by
  obtain ⟨_, rfl⟩ := (whenSelected_next _ _ _ _).1 h
  exact hu

/-- A row of `P1.payload`. -/
theorem payloadRow_rxPosted {row : String} {cond : Bool} {classify : MaskPort → State → State}
    (h : whenSelected row cond (payloadStep classify s) = .next t)
    (hcl : ∀ (i : MaskPort) (t : State), ∃ x, classify i t = writePort i x t) : t.rxPosted = s.rxPosted :=
  whenSelected_rxPosted h (payloadStep_onlyP1Decoder classify hcl s).rxPosted

/-- A row of the P2 states that have a selected port. -/
theorem onSelected_rxPosted {row : String} {st : P2State} {f : Port → State → State}
    (h : onSelected row st f s = .next t)
    (hf : ∀ p, s.p2State = st → s.selectedPort = some p → P2Row False s (f p s)) : t.rxPosted = s.rxPosted := by
  obtain ⟨p, hp, hin, rfl⟩ := (onSelected_next _ _ _ _ _).1 h
  obtain ⟨_, hst⟩ := of_inP2 hin
  exact (hf p hst hp).rxPosted

theorem execP2SelValid_rxPosted (b : Byte) (h : execP2SelValid b s = .next t) : t.rxPosted = s.rxPosted := by
  unfold execP2SelValid at h
  split at h
  · cases h
  · exact whenSelected_rxPosted h rfl

theorem execP2outPrime_rxPosted (b : Byte) (h : execP2outPrime b s = .next t) : t.rxPosted = s.rxPosted := by
  unfold execP2outPrime at h
  split at h
  · cases h
  · exact whenSelected_rxPosted h (emitSlot_rxPosted _ s)

theorem execP2outFifo_rxPosted (b : Byte) (h : execP2outFifo b s = .next t) : t.rxPosted = s.rxPosted := by
  unfold execP2outFifo at h
  split at h
  · cases h
  · exact whenSelected_rxPosted h (by rw [emitFifoByte_eq])

theorem execP1outPayload_rxPosted (b : Byte) (h : execP1outPayload b s = .next t) : t.rxPosted = s.rxPosted := by
  unfold execP1outPayload at h
  split at h
  · cases h
  · exact whenSelected_rxPosted h rfl

/-- Every instruction but RESET leaves the receive request as it was, or posted. -/
theorem exec_rxPosted (i : Instr) (hi : ∀ cfg, i ≠ .reset cfg) (h : exec i s = .next t) :
    t.rxPosted = true ∨ t.rxPosted = s.rxPosted := by
  cases i with
  | reset cfg => exact absurd rfl (hi cfg)
  | rxPacket pkt => exact execRxPacket_rxPosted pkt h
  | txKick => exact .inr (execTxKick_rxPosted h)
  | txDone ok => exact .inr (execTxDone_rxPosted ok h)
  | lenData | lenChan8 | lenChan9 | lenChanA | lenChanB | lenChanC | lenChanD | lenChanE | lenSysex | lenSysF1
  | lenSysF2 | lenSysF3 | lenSysF4 | lenSysF5 | lenSysF6 | lenSysF7 | lenSysF8 | lenSysF9 | lenSysFA | lenSysFB | lenSysFC
  | lenSysFD | lenSysFE | lenFF => cases h; exact .inr rfl
  | p1Mask0 | p1Mask | p2Fill | p2WaitMark | p2WaitOther | p2SelInvalid | p2outTrailer | p1outSeq | p1outRsvd
  | p1outMask | p1outEnd => exact .inr (whenSelected_rxPosted h rfl)
  | p1PayStatus b => exact .inr (payloadRow_rxPosted h fun i t => ⟨_, p1Status_eq i t b⟩)
  | p1PaySysex => exact .inr (payloadRow_rxPosted h fun i t => ⟨_, p1Sysex_eq i t⟩)
  | p1PayNac => exact .inr (payloadRow_rxPosted h fun i t => ⟨_, appendDeliverable_eq i t nonCommand⟩)
  | p1PayData b => exact .inr (payloadRow_rxPosted h fun i t => ⟨_, appendCounted_eq i t b⟩)
  | p1PayRs b => exact .inr (payloadRow_rxPosted h fun i t => ⟨_, p1RunningStatus_eq i t b⟩)
  | p1PayNoctx b => exact .inr (payloadRow_rxPosted h fun i t => ⟨_, appendDeliverable_eq i t b⟩)
  | p2SelValid b => exact .inr (execP2SelValid_rxPosted b h)
  | p2DataStatus b => exact .inr (onSelected_rxPosted h fun p hst hp => .dataStatus s p b hst hp False.elim)
  | p2DataData b => exact .inr (onSelected_rxPosted h fun p hst hp => .dataData s p b hst hp)
  | p2Fixed b => exact .inr (onSelected_rxPosted h fun p hst hp => .fixedByte s p b hst hp)
  | p2SysexEnd => exact .inr (onSelected_rxPosted h fun p hst hp => .sysexEnd s p hst hp)
  | p2SysexByte b => exact .inr (onSelected_rxPosted h fun p hst hp => .sysexByte s p b hst hp)
  | fifoSysex q | fifoSysexEnd q | fifoStatus q | fifoNac q | fifoDataSpan q | fifoDataNospan q =>
    exact .inr (whenSelected_rxPosted h (pushOne_rxPosted q _ _ s))
  | p2outMarker q => exact .inr (whenSelected_rxPosted h (emitSlot_rxPosted marker s))
  | p2outPort q => exact .inr (whenSelected_rxPosted h (emitSwitchPort_rxPosted q s))
  | p2outPrime b => exact .inr (execP2outPrime_rxPosted b h)
  | p2outFifo b => exact .inr (execP2outFifo_rxPosted b h)
  | p2outPad | p2outFinalPad => exact .inr (whenSelected_rxPosted h (padSlots_rxPosted group s))
  | p1outPayload b => exact .inr (execP1outPayload_rxPosted b h)

/-- Settles O59: a new session posts its first receive, and no other instruction takes it away (`exec_rxPosted`) or
opens a session. -/
theorem stepKeepsOneReceivePosted : Obligations.StepKeepsOneReceivePosted := by
  intro s t hs h
  rcases (step_next s t).1 h with ⟨_, rfl⟩ | ⟨r, rest, _, i, _, _, _, hexec⟩
  · exact hs
  · have htake : ReceivePosted (takeRequest r rest s) := hs
    by_cases hi : ∀ cfg, i ≠ .reset cfg
    · intro ho
      have hcfg := (exec_acts (W := False) i hi False.elim hexec).sameConfig
      rcases exec_rxPosted i hi hexec with hposted | hkept
      · exact hposted
      · exact hkept.trans (htake (hcfg.sessionOpen ▸ ho))
    · push Not at hi
      obtain ⟨cfg, rfl⟩ := hi
      rcases execReset_next cfg hexec with rfl | ⟨c, rfl⟩
      · exact htake
      · exact fun _ => rfl

end Sys2Proof.Machine
end

section
/-! PROOFS. The operations that are refused (70_reset_and_hazards.md R271, 46_control.md R231, R238), and the values
that the model starts with (70_reset_and_hazards.md R270). -/

namespace Sys2Proof.Machine

variable {s : State} {q : Port}

/-! ### No session, and no receive posted (R271, R231) -/

theorem exec_rxPacket_noSession (pkt : List Byte) (ho : s.sessionOpen = false) :
    exec (.rxPacket pkt) s = .next (refuse .noSession s) := by
  simp [exec, execRxPacket, ho]

theorem exec_txKick_noSession (ho : s.sessionOpen = false) : exec .txKick s = .next (refuse .noSession s) := by
  simp [exec, execTxKick, ho]

theorem exec_txDone_noSession (ok : Bool) (ho : s.sessionOpen = false) :
    exec (.txDone ok) s = .next (refuse .noSession s) := by
  simp [exec, execTxDone, ho]

theorem exec_rxPacket_notPosted (pkt : List Byte) (ho : s.sessionOpen = true) (hr : s.rxPosted = false) :
    exec (.rxPacket pkt) s = .next (refuse .noReceivePosted s) := by
  simp [exec, execRxPacket, ho, hr]

/-! ### An answer that is too long (R238) -/

/-- P1 asks the first eight output ports at most (42_p1_encoder.md R151), P2 all of them (45_p2_encoder.md R205). -/
theorem mem_pulledPorts_iff :
    q ∈ pulledPorts s ↔ q.val < s.nOut.val ∧ (s.variant = .p1 → q.val < 8) := by
  cases hv : s.variant with
  | p1 => simp [mem_pulledPorts_p1 hv]
  | p2 => simp [mem_pulledPorts_p2 hv]

theorem answersLegal_eq_false_of_long (hq : q ∈ pulledPorts s) (hlong : 3 < (s.env.pull[q]).length) :
    answersLegal s = false :=
  List.all_eq_false.2 ⟨q, hq, fun hle => absurd hlong (Nat.not_lt.2 (of_decide_eq_true hle))⟩

theorem exec_txKick_longAnswer (ho : s.sessionOpen = true) (ha : s.active = false) (hl : answersLegal s = false) :
    exec .txKick s = .next (refuse .pullAnswerTooLong s) := by
  simp [exec, execTxKick, encodeOrRefuse, ho, ha, hl]

/-- The refusal gives back the state before TX_DONE cleared `active`. -/
theorem exec_txDone_longAnswer (ok : Bool) (ho : s.sessionOpen = true) (ha : s.active = true)
    (hl : answersLegal s = false) : exec (.txDone ok) s = .next (refuse .pullAnswerTooLong s) := by
  have hl' : answersLegal (setActive false s) = false := hl
  simp [exec, execTxDone, encodeOrRefuse, ho, ha, hl']

/-- Settles O8: each refusal is one `refuse`, which writes the verdict alone. A port that is asked and answers more than
3 bytes makes the answers illegal (`answersLegal_eq_false_of_long`). -/
theorem refusedOperationsChangeNothing : Obligations.RefusedOperationsChangeNothing := by
  refine ⟨fun s i ho hi => ?_, fun s pkt => exec_rxPacket_notPosted pkt, fun s q ok ho hq h8 hlong => ?_⟩
  · rcases hi with rfl | ⟨pkt, rfl⟩ | ⟨ok, rfl⟩
    · exact exec_txKick_noSession ho
    · exact exec_rxPacket_noSession pkt ho
    · exact exec_txDone_noSession ok ho
  · have hillegal := answersLegal_eq_false_of_long (mem_pulledPorts_iff.2 ⟨hq, h8⟩) hlong
    exact ⟨fun ha => exec_txKick_longAnswer ho ha hillegal, fun ha => exec_txDone_longAnswer ok ho ha hillegal⟩

/-! ### The reset state (R270) -/

/-- Settles O9: every record is fresh (`reset_ia`, `reset_fifo`), and the other fields are the values written down in
`State.reset`. -/
theorem resetStateHoldsTheResetValues : Obligations.ResetStateHoldsTheResetValues :=
  ⟨rfl, rfl, rfl, rfl, rfl, reset_ia, reset_fifo, rfl, rfl, rfl, rfl, rfl, rfl, rfl⟩

end Sys2Proof.Machine
end
